-- ==== Sys2Proof/Word.lean ====
section
/-! DEFINITION. The value types of 00_scope.md rule R8: `byte`, `word`, `sym` and the 7-bit command field.
Every value is unsigned; `+` on a `Word` is the spec's `+32` and drops the carry (41_encipher.md rule R87). -/

namespace Sys2Proof

/-- `byte`: an unsigned 8-bit value (00_scope.md rule R8). -/
abbrev Byte := BitVec 8

/-- `word`: an unsigned 32-bit value (00_scope.md rule R8). -/
abbrev Word := BitVec 32

/-- `sym`: an unsigned 6-bit value, one base64 symbol (00_scope.md rule R8, 43_base64.md rule R100). -/
abbrev Sym := BitVec 6

/-- One operand field of a command, or a `BUF` address: 7 bits, unsigned (30_encoding.md rules R50, R53). -/
abbrev Field := BitVec 7

end Sys2Proof
end

