-- ==== Sys2Proof/Syntax.lean ====
section
/-! DEFINITION. The nine commands (30_encoding.md rules R52, R53), each with the fields it uses in the order `a`, `b`, `c`,
`d` of the written form (rule R57). A field keeps its whole 7-bit range: a length of zero or an offset above 4 is still
that command, and raises `E_LEN` or `E_RANGE` when it is executed (rule R51 steps 6 and 7). -/

namespace Sys2Proof

/-- One constructor per row of spec/opcode_table.json. -/
inductive Instr where
  /-- `INIT`: load the initial tables (40_init.md rule R70). -/
  | init
  /-- `EKS a, b, c`: salted key schedule, key at `a`, salt at `b`, key length `c` (42_key_schedule.md rule R94). -/
  | eks (a b c : Field)
  /-- `KS a, c`: key schedule, key at `a`, key length `c` (42_key_schedule.md rule R92). -/
  | ks (a c : Field)
  /-- `LDD a`: load the data words from `a` (41_encipher.md rule R85). -/
  | ldd (a : Field)
  /-- `ENC d`: encipher `D[d]`, `D[d+1]` (41_encipher.md rule R83). -/
  | enc (d : Field)
  /-- `STD b`: store the data words at `b` (41_encipher.md rule R86). -/
  | std (b : Field)
  /-- `B64E a, b, c`: encode `c` bytes at `a` to `b` (43_base64.md rule R104). -/
  | b64e (a b c : Field)
  /-- `B64D a, b, c, d`: decode `c` characters at `a` to at most `d` bytes at `b` (43_base64.md rule R108). -/
  | b64d (a b c d : Field)
  /-- `RST`: clear everything but `BUF` (40_init.md rule R72). -/
  | rst
  deriving DecidableEq, Repr

end Sys2Proof
end

