-- ==== Sys2Proof/Decode.lean ====
section
/-! DEFINITION. From a command word to a command, and back: the fields of 30_encoding.md rule R50, the decoding steps 3 and 4
of rule R51 with the opcode map of rule R52 and the unused fields of rule R53, the encoder, and the match and mask of each
row. Every one of the 2^32 words decodes to a command or is rejected by name (rule R55). -/

namespace Sys2Proof

/-- Why a word is no command (30_encoding.md rule R55). -/
inductive DecodeError where
  /-- `op` selects no command: `E_OPCODE` (60_exceptions.md rule R125). -/
  | opcode
  /-- A field the command does not use is not zero: `E_FIELD` (60_exceptions.md rule R125). -/
  | field
  deriving DecidableEq, Repr

/-- `op = w[31:28]` (30_encoding.md rule R50). -/
def opField (w : Word) : BitVec 4 := w.extractLsb' 28 4

/-- `a = w[27:21]` (30_encoding.md rule R50). -/
def aField (w : Word) : Field := w.extractLsb' 21 7

/-- `b = w[20:14]` (30_encoding.md rule R50). -/
def bField (w : Word) : Field := w.extractLsb' 14 7

/-- `c = w[13:7]` (30_encoding.md rule R50). -/
def cField (w : Word) : Field := w.extractLsb' 7 7

/-- `d = w[6:0]` (30_encoding.md rule R50). -/
def dField (w : Word) : Field := w.extractLsb' 0 7

/-- A command once its opcode is known: rejected when a field it does not use is not zero (30_encoding.md rule R51 step 4). -/
def requireZero (unused : List Field) (i : Instr) : Except DecodeError Instr :=
  if unused.all (· == 0#7) then .ok i else .error .field

/-- The decoder: 30_encoding.md rule R51 steps 3 and 4, over the opcode map of rule R52. -/
def decode (w : Word) : Except DecodeError Instr :=
  let a := aField w
  let b := bField w
  let c := cField w
  let d := dField w
  match (opField w).toNat with
  | 1 => requireZero [a, b, c, d] .init
  | 2 => requireZero [d] (.eks a b c)
  | 3 => requireZero [b, d] (.ks a c)
  | 4 => requireZero [b, c, d] (.ldd a)
  | 5 => requireZero [a, b, c] (.enc d)
  | 6 => requireZero [a, c, d] (.std b)
  | 8 => requireZero [d] (.b64e a b c)
  | 9 => requireZero [] (.b64d a b c d)
  | 15 => requireZero [a, b, c, d] .rst
  | _ => .error .opcode

/-- `w = op << 28 | a << 21 | b << 14 | c << 7 | d` (30_encoding.md rule R50). -/
def pack (op : BitVec 4) (a b c d : Field) : Word := op ++ a ++ b ++ c ++ d

/-- The encoder: the word of a command, its unused fields zero (30_encoding.md rule R53). -/
def encode : Instr → Word
  | .init => pack 1 0 0 0 0
  | .eks a b c => pack 2 a b c 0
  | .ks a c => pack 3 a 0 c 0
  | .ldd a => pack 4 a 0 0 0
  | .enc d => pack 5 0 0 0 d
  | .std b => pack 6 0 b 0 0
  | .b64e a b c => pack 8 a b c 0
  | .b64d a b c d => pack 9 a b c d
  | .rst => pack 15 0 0 0 0

/-- The `match` column of the table of 30_encoding.md rule R53. -/
def rowMatch : Instr → Word
  | .init => 0x10000000
  | .eks _ _ _ => 0x20000000
  | .ks _ _ => 0x30000000
  | .ldd _ => 0x40000000
  | .enc _ => 0x50000000
  | .std _ => 0x60000000
  | .b64e _ _ _ => 0x80000000
  | .b64d _ _ _ _ => 0x90000000
  | .rst => 0xF0000000

/-- The `mask` column of the table of 30_encoding.md rule R53. -/
def rowMask : Instr → Word
  | .init => 0xFFFFFFFF
  | .eks _ _ _ => 0xF000007F
  | .ks _ _ => 0xF01FC07F
  | .ldd _ => 0xF01FFFFF
  | .enc _ => 0xFFFFFF80
  | .std _ => 0xFFE03FFF
  | .b64e _ _ _ => 0xF000007F
  | .b64d _ _ _ _ => 0xF0000000
  | .rst => 0xFFFFFFFF

/-- The command word whose low `nbits` bits are those of `w` and whose other bits are zero. A command is one 32-bit word
and is given to the block whole (30_encoding.md rule R50), so bit 0 of the table's numbering is bit 0 of the word. -/
def tableWord (nbits w : Nat) : Word := BitVec.ofNat 32 (w % 2 ^ nbits)

/-- What the decoder reads from a word numbered as spec/opcode_table.json numbers it (log 6). -/
def decodeTableWord (nbits w : Nat) : Option Instr :=
  match decode (tableWord nbits w) with
  | .ok i => some i
  | .error _ => none

end Sys2Proof
end

