-- ==== Sys2Proof/Machine/Codec.lean ====
section
/-! DEFINITION. The bcrypt base64 functions `Sym`, `Val`, `Encode` and `Decode` (43_base64.md rules R101 to R106). -/

namespace Sys2Proof.Machine

/-- `Sym(v)`: the character of a symbol (43_base64.md rule R101). -/
def symChar (v : Sym) : Byte :=
  if v.toNat = 0 then 0x2E
  else if v.toNat = 1 then 0x2F
  else if v.toNat ≤ 27 then BitVec.ofNat 8 (0x41 + (v.toNat - 2))
  else if v.toNat ≤ 53 then BitVec.ofNat 8 (0x61 + (v.toNat - 28))
  else BitVec.ofNat 8 (0x30 + (v.toNat - 54))

/-- `Val(ch)`: the symbol of a character, `none` for `invalid` (43_base64.md rule R102). -/
def charSym (ch : Byte) : Option Sym :=
  if ch.toNat = 0x2E then some 0
  else if ch.toNat = 0x2F then some 1
  else if 0x30 ≤ ch.toNat ∧ ch.toNat ≤ 0x39 then some (BitVec.ofNat 6 (54 + (ch.toNat - 0x30)))
  else if 0x41 ≤ ch.toNat ∧ ch.toNat ≤ 0x5A then some (BitVec.ofNat 6 (2 + (ch.toNat - 0x41)))
  else if 0x61 ≤ ch.toNat ∧ ch.toNat ≤ 0x7A then some (BitVec.ofNat 6 (28 + (ch.toNat - 0x61)))
  else none

/-- `Encode(bs, n)`: four symbols for a chunk of three bytes, three for a last chunk of two, two for a last chunk of one
(43_base64.md rule R103). -/
def b64Encode : List Byte → List Sym
  | b0 :: b1 :: b2 :: rest =>
    b0.extractLsb' 2 6 :: (b0.extractLsb' 0 2 ++ b1.extractLsb' 4 4) ::
      (b1.extractLsb' 0 4 ++ b2.extractLsb' 6 2) :: b2.extractLsb' 0 6 :: b64Encode rest
  | [b0, b1] =>
    [b0.extractLsb' 2 6, b0.extractLsb' 0 2 ++ b1.extractLsb' 4 4, b1.extractLsb' 0 4 ++ 0#2]
  | [b0] => [b0.extractLsb' 2 6, b0.extractLsb' 0 2 ++ 0#4]
  | [] => []

/-- `Decode(cs, n, max)` with `n` the length of `cs`, one turn of the loop of 43_base64.md rule R106 per group of four
characters; `max` is what remains of the limit, so `length(out) >= max` reads as: it is 0. -/
def b64Decode (cs : List Byte) (max : Nat) : List Byte :=
  match cs with
  | ch1 :: ch2 :: after2 =>
    if max = 0 then [] else
    match charSym ch1, charSym ch2 with
    | some c1, some c2 =>
      (c1 ++ c2.extractLsb' 4 2) ::
        (if max = 1 then [] else
        match after2 with
        | [] => []
        | ch3 :: after3 =>
          match charSym ch3 with
          | none => []
          | some c3 =>
            (c2.extractLsb' 0 4 ++ c3.extractLsb' 2 4) ::
              (if max = 2 then [] else
              match after3 with
              | [] => []
              | ch4 :: after4 =>
                match charSym ch4 with
                | none => []
                | some c4 => (c3.extractLsb' 0 2 ++ c4) :: b64Decode after4 (max - 3)))
    | _, _ => []
  | _ => []

end Sys2Proof.Machine
end

