-- ==== Sys2Proof/Config.lean ====
section
/-! DEFINITION. The parameters of 00_scope.md rule R4 that the rules use as lengths. No rule of the spec draws a value
(93_implementation_defined.md, Part A), so there is no free value here; the one open parameter, `HOST_MAP`, is how a
platform places the host operations on a bus, and no rule depends on it (rule R4, log 4). -/

namespace Sys2Proof

/-- `BUF_SIZE`: bytes of `BUF` (00_scope.md rule R4, 10_state.md rule R14). -/
@[simp] abbrev Config.bufSize : Nat := 128

/-- `SALT_LEN`: bytes of a salt (00_scope.md rule R4, 30_encoding.md rule R54). -/
@[simp] abbrev Config.saltLen : Nat := 16

/-- Bytes that `LDD` reads and `STD` writes: six words (20_memory.md rule R35). -/
@[simp] abbrev Config.dataBytes : Nat := 24

end Sys2Proof
end

