-- ==== Sys2Proof/Machine/State.lean ====
section
/-! DEFINITION. The state of one block instance, the nine elements of the opening table of 10_state.md, and the host's side of
the interface: the host operations still to come and the values its reads have returned (00_scope.md rules R6, R7). -/

namespace Sys2Proof.Machine

/-- `PHASE` (10_state.md rule R15). -/
inductive Phase where
  /-- 0 `UNINIT`: no key schedule has run. -/
  | uninit
  /-- 1 `KEYSCHED`: a key schedule has completed and no `ENC` has. -/
  | keysched
  /-- 2 `ENCIPHER`: an `ENC` has completed. -/
  | encipher
  /-- 3 `DONE`: `STD` has completed. -/
  | done
  deriving DecidableEq, Repr

/-- `ERR` (10_state.md rule R18). The codes 6 and 7 never occur and have no constructor (93_implementation_defined.md U8). -/
inductive Err where
  /-- 0: no error since the last `RST` or reset. -/
  | noError
  /-- 1 `E_OPCODE`. -/
  | opcode
  /-- 2 `E_FIELD`. -/
  | field
  /-- 3 `E_PHASE`. -/
  | phase
  /-- 4 `E_LEN`. -/
  | len
  /-- 5 `E_RANGE`. -/
  | range
  deriving DecidableEq, Repr

/-- `CipherState`, the source's name for P-array plus S-boxes (00_scope.md section 7). -/
structure CipherState where
  /-- `P[0..17]` (10_state.md rule R10). -/
  p : Vector Word 18
  /-- `SF[0..1023]`, the flat view of the four S-boxes: `SF[256*b + j] = S[b][j]` (10_state.md rule R11). -/
  sf : Vector Word 1024
  deriving DecidableEq, Repr

/-- A byte memory: the cells that differ from zero, addresses strictly rising. An unlisted address reads as zero, which is
what `BUF` holds after reset (10_state.md rule R23, log 3). -/
abbrev Memory := List Host.Cell

/-- The state of the block: exactly the nine elements of 10_state.md. -/
structure Block where
  /-- `P` and `S` (10_state.md rules R10, R11). -/
  cipher : CipherState
  /-- `D[0..5]` (10_state.md rule R13). -/
  d : Vector Word 6
  /-- `BUF[0..127]` (10_state.md rule R14). -/
  buf : Memory
  /-- `PHASE` (10_state.md rule R15). -/
  phase : Phase
  /-- `LOADED` (10_state.md rule R17). -/
  loaded : Bool
  /-- `ERR` (10_state.md rule R18). -/
  err : Err
  /-- `RLEN` (10_state.md rule R18). -/
  rlen : BitVec 8
  /-- `ECMD` (10_state.md rule R20). -/
  ecmd : Word
  deriving DecidableEq, Repr

/-- The two CSRs; no other number can be expressed (60_exceptions.md rule R134). -/
inductive Csr where
  /-- Number 0, `STATUS` (10_state.md rule R19). -/
  | status
  /-- Number 1, `ECMD` (10_state.md rule R20). -/
  | ecmd
  deriving DecidableEq, Repr

/-- The six host operations; `HostReadCsr` takes the register (00_scope.md rule R6). -/
inductive HostOp where
  /-- `HostCmd(w)`. -/
  | cmd (w : Word)
  /-- `HostWriteBuf(addr, v)`. -/
  | writeBuf (addr : Field) (v : Byte)
  /-- `HostReadBuf(addr)`. -/
  | readBuf (addr : Field)
  /-- `HostReadCsr(0)` and `HostReadCsr(1)`. -/
  | readCsr (n : Csr)
  /-- `HardReset`. -/
  | hardReset
  deriving DecidableEq, Repr

/-- What a read operation returned to the host (00_scope.md rules R6, R7). -/
inductive Reply where
  /-- The byte of a `HostReadBuf`. -/
  | byte (v : Byte)
  /-- The word of a `HostReadCsr`. -/
  | word (v : Word)
  deriving DecidableEq, Repr

/-- The block and the host's side of it. -/
structure State extends Block where
  /-- The host operations that have not reached the block yet, oldest first: the model's own field (log 1). -/
  pending : List HostOp
  /-- The values the read operations returned, oldest first: the model's own field (log 2). -/
  replies : List Reply
  deriving DecidableEq, Repr

/-- Nothing stops this block with a fault: every command error is a next state that records it (60_exceptions.md rules R120,
R121), and a host read or write cannot fail (rule R120). So the type has no constructor, and no step can raise one (safe). -/
inductive Fault where
  deriving DecidableEq, Repr

/-- Reasons for having no meaning for a command. -/
inductive Refusal where
  /-- An arm of `exec` that has no meaning yet. No arm raises it: all nine commands are modelled (safe: it would only stop). -/
  | notModelled (mnemonic : String)
  deriving DecidableEq, Repr

/-- What a command or a host operation answers. -/
abbrev Result := Host.Outcome State Fault Refusal

/-- Every element zero, `BUF` too (10_state.md rule R23, 70_reset_and_hazards.md rule R140). -/
def Block.zero : Block where
  cipher := { p := Vector.replicate 18 0, sf := Vector.replicate 1024 0 }
  d := Vector.replicate 6 0
  buf := []
  phase := .uninit
  loaded := false
  err := .noError
  rlen := 0
  ecmd := 0

/-- The machine right after power-on, which is a `HardReset` (70_reset_and_hazards.md rule R140), with no host operation
pending and nothing read yet (logs 1, 2). -/
def State.reset : State := { Block.zero with pending := [], replies := [] }

end Sys2Proof.Machine
end

