-- ==== Sys2Proof/Machine/Ops.lean ====
section
/-! DEFINITION. The named operations over memory and registers: reading and writing `BUF`, one writer per state element,
recording an error, the two resets, and the order in which a command's checks are made. -/

namespace Sys2Proof.Machine

/-! ## Memory -/

/-- The byte at an address; an unlisted address reads as zero (10_state.md rule R23, log 3). -/
def Memory.read : Memory → Nat → Byte
  | [], _ => 0
  | (b, u) :: rest, a => if a = b then u else Memory.read rest a

/-- Write one byte and keep the canonical form: a zero byte is not listed (log 3). -/
def Memory.write : Memory → Nat → Byte → Memory
  | [], a, v => if v = 0 then [] else [(a, v)]
  | (b, u) :: rest, a, v =>
    if a < b then (if v = 0 then (b, u) :: rest else (a, v) :: (b, u) :: rest)
    else if a = b then (if v = 0 then rest else (a, v) :: rest)
    else (b, u) :: Memory.write rest a v

/-- `MemRead(addr, n)`: the `n` bytes from `addr` (00_scope.md rule R8). -/
def Memory.readBytes (m : Memory) (a n : Nat) : List Byte := (List.range n).map fun k => m.read (a + k)

/-- `MemWrite(addr, n, bs)`: write the bytes `bs` from `addr` on (00_scope.md rule R8). -/
def Memory.writeBytes : Memory → Nat → List Byte → Memory
  | m, _, [] => m
  | m, a, b :: bs => Memory.writeBytes (m.write a b) (a + 1) bs

/-- The canonical form: every address is at least `lo` and below 128, addresses rise strictly, no byte is zero (log 3). -/
def Memory.wfFrom : Nat → Memory → Bool
  | _, [] => true
  | lo, (b, u) :: rest => decide (lo ≤ b) && decide (b < Config.bufSize) && decide (u ≠ 0) && Memory.wfFrom (b + 1) rest

/-- The memory is `BUF` in canonical form (10_state.md rule R14, log 3). -/
def Memory.wf (m : Memory) : Bool := Memory.wfFrom 0 m

/-! ## One writer per state element -/

/-- Write all of `P` and `S`. -/
def State.setCipher (s : State) (c : CipherState) : State := { s with cipher := c }

/-- Write all of `D`. -/
def State.setD (s : State) (d : Vector Word 6) : State := { s with d := d }

/-- Write `BUF`. -/
def State.setBuf (s : State) (m : Memory) : State := { s with buf := m }

/-- Write `PHASE`. -/
def State.setPhase (s : State) (p : Phase) : State := { s with phase := p }

/-- Set `LOADED`. -/
def State.setLoaded (s : State) (b : Bool) : State := { s with loaded := b }

/-- Write `RLEN`, 8 bits (10_state.md rule R18). -/
def State.setRlen (s : State) (n : Nat) : State := { s with rlen := BitVec.ofNat 8 n }

/-- What remains of the host's operations once one has been taken (log 1). -/
def State.setPending (s : State) (q : List HostOp) : State := { s with pending := q }

/-- A read operation returns a value to the host (00_scope.md rule R6, log 2). -/
def State.reply (s : State) (r : Reply) : State := { s with replies := s.replies ++ [r] }

/-! ## Errors and halting -/

/-- The block is halted: `ERR ≠ 0` (60_exceptions.md rule R123). -/
def State.halted (s : State) : Bool := decide (s.err ≠ .noError)

/-- Taking an exception, `raise E_X` in `HostCmd(w)`: `ERR <- code(E_X)`, `ECMD <- w`, and nothing else
(60_exceptions.md rule R121). -/
def State.raise (s : State) (e : Err) (w : Word) : State := { s with err := e, ecmd := w }

/-- Steps 5 to 7 of 30_encoding.md rule R51: the first error whose check fails, `E_PHASE`, then `E_LEN`, then `E_RANGE`. -/
def firstError (phaseOk lenOk rangeOk : Bool) : Err :=
  if !phaseOk then .phase else if !lenOk then .len else if !rangeOk then .range else .noError

/-- A command with word `w` and first error `e`: ignored while halted (30_encoding.md rule R51 step 2), else the error it
raises, else its effect (steps 5 to 8). -/
def command (w : Word) (e : Err) (effect : State → State) (s : State) : Result :=
  if s.halted then .next s
  else if e = .noError then .next (effect s)
  else .next (s.raise e w)

/-! ## Reset -/

/-- `HardReset`: every element of the block is zero (70_reset_and_hazards.md rule R140). The host's side is kept (log 8). -/
def State.hardReset (s : State) : State := { s with toBlock := Block.zero }

/-- `RST`: every element but `BUF` is zero (40_init.md rule R72); also the only return from an error that a command gives
(60_exceptions.md rule R124). -/
def State.softReset (s : State) : State := { s with toBlock := { Block.zero with buf := s.buf } }

end Sys2Proof.Machine
end

