-- ==== Sys2Proof/Machine/Operands.lean ====
section
/-! DEFINITION. Operand forms: the length and region checks of a command's fields, byte order, and the words of `D`. -/

namespace Sys2Proof.Machine

/-- A length that must be at least 1 (30_encoding.md rule R51 step 6, 60_exceptions.md rule R127). -/
def lenOk (n : Field) : Bool := decide (n ≠ 0)

/-- A region of `n` bytes at `x` is legal: `x + n ≤ 128`, computed as integers (20_memory.md rule R36). -/
def regionOk (x : Field) (n : Nat) : Bool := decide (x.toNat + n ≤ Config.bufSize)

/-- The offset of `ENC` names a pair of `D`: `d ≤ 4` (30_encoding.md rule R51 step 7, 60_exceptions.md rule R128). -/
def offsetOk (d : Field) : Bool := decide (d.toNat ≤ 4)

/-- `ceil(4n/3)`, the number of characters that encode `n` bytes (43_base64.md rule R103, 00_scope.md rule R8). -/
def encodedLen (n : Nat) : Nat := (4 * n + 3 - 1) / 3

/-- `be32(b0, b1, b2, b3)`: `b0` is the most significant byte (00_scope.md rule R8, 20_memory.md rule R32). -/
def be32 (b0 b1 b2 b3 : Byte) : Word := b0 ++ b1 ++ b2 ++ b3

/-- `bytes_be(w)`: the four bytes of a word, most significant first (00_scope.md rule R8). -/
def bytesBe (w : Word) : List Byte :=
  [w.extractLsb' 24 8, w.extractLsb' 16 8, w.extractLsb' 8 8, w.extractLsb' 0 8]

/-- The word whose bytes stand at `a..a+3` of memory (41_encipher.md rule R85). -/
def Memory.readWord (m : Memory) (a : Nat) : Word :=
  be32 (m.read a) (m.read (a + 1)) (m.read (a + 2)) (m.read (a + 3))

/-- `D[i]`; a command uses only indices its checks have put in range (20_memory.md rule R31, log 9). -/
def dWord (d : Vector Word 6) (i : Nat) : Word := d.getD i 0

/-- `(D[i], D[i+1]) <- lr`, the left word first (41_encipher.md rule R83). -/
def setPair (d : Vector Word 6) (i : Nat) (lr : Word × Word) : Vector Word 6 :=
  (d.setIfInBounds i lr.1).setIfInBounds (i + 1) lr.2

end Sys2Proof.Machine
end

