-- ==== Sys2Proof/Machine/Base64.lean ====
section
/-! DEFINITION. The codec commands `B64E` and `B64D`. They are legal in every phase and touch `BUF` and `RLEN` only
(43_base64.md, opening). All source bytes are read before any destination byte is written (20_memory.md rule R38). -/

namespace Sys2Proof.Machine

/-- `B64E a, b, c` executed: the characters of the `c` bytes at `a` go to `b`, `RLEN <- ceil(4c/3)`
(43_base64.md rule R104). -/
def b64eEffect (a b c : Field) (s : State) : State :=
  (s.setBuf (s.buf.writeBytes b.toNat ((b64Encode (s.buf.readBytes a.toNat c.toNat)).map symChar))).setRlen
    (encodedLen c.toNat)

/-- `B64E a, b, c` (43_base64.md rule R104). -/
def execB64e (a b c : Field) (s : State) : Result :=
  command (encode (.b64e a b c))
    (firstError true (lenOk c) (regionOk a c.toNat && regionOk b (encodedLen c.toNat))) (b64eEffect a b c) s

/-- `B64D a, b, c, d` executed: the decoded bytes of the `c` characters at `a`, at most `d`, go to `b`, and `RLEN` is their
number (43_base64.md rule R108). -/
def b64dEffect (a b c d : Field) (s : State) : State :=
  let out := b64Decode (s.buf.readBytes a.toNat c.toNat) d.toNat
  (s.setBuf (s.buf.writeBytes b.toNat out)).setRlen out.length

/-- `B64D a, b, c, d` (43_base64.md rule R108). -/
def execB64d (a b c d : Field) (s : State) : Result :=
  command (encode (.b64d a b c d))
    (firstError true (lenOk d) (regionOk a c.toNat && regionOk b d.toNat)) (b64dEffect a b c d) s

end Sys2Proof.Machine
end

