-- ==== Sys2Proof/Machine/Cipher.lean ====
section
/-! DEFINITION. The cipher functions: `F`, `Encipher` and its unrolled form (41_encipher.md rules R80 to R82), `StreamWord`,
`KeyMix` and the two key schedules (42_key_schedule.md rules R90 to R94). A loop `for i in 0..n-1` is `Nat.fold n`. -/

namespace Sys2Proof.Machine

/-- `S[b][j]` is `SF[b ‖ j]` (20_memory.md rule R31). -/
def sbox (sf : Vector Word 1024) (b : BitVec 2) (j : Byte) : Word := sf[(b ++ j).toNat]'(b ++ j).isLt

/-- `F(x) = ((S[0][x0] +32 S[1][x1]) xor S[2][x2]) +32 S[3][x3]` (41_encipher.md rule R80). -/
def roundF (sf : Vector Word 1024) (x : Word) : Word :=
  ((sbox sf 0 (x.extractLsb' 24 8) + sbox sf 1 (x.extractLsb' 16 8)) ^^^ sbox sf 2 (x.extractLsb' 8 8)) +
    sbox sf 3 (x.extractLsb' 0 8)

/-- One round with subkey `k`: `L <- L xor k; R <- R xor F(L); (L, R) <- (R, L)` (41_encipher.md rule R81). -/
def cipherRound (sf : Vector Word 1024) (k : Word) (lr : Word × Word) : Word × Word :=
  (lr.2 ^^^ roundF sf (lr.1 ^^^ k), lr.1 ^^^ k)

/-- `Encipher(Lin, Rin)`: sixteen rounds, the last swap undone, then `P[16]` into the right word and `P[17]` into the left
(41_encipher.md rule R81). -/
def encipher (c : CipherState) (lr : Word × Word) : Word × Word :=
  let out := Nat.fold 16 (fun i hi x => cipherRound c.sf (c.p[i]'(by omega)) x) lr
  (out.2 ^^^ c.p[17], out.1 ^^^ c.p[16])

/-- The form of 41_encipher.md rule R82, with the swaps unrolled. The machine uses `encipher`. -/
def encipherUnrolled (c : CipherState) (lr : Word × Word) : Word × Word :=
  let out := Nat.fold 8 (fun k hk (x : Word × Word) =>
    let r := x.2 ^^^ roundF c.sf x.1 ^^^ c.p[2 * k + 1]'(by omega)
    let l := x.1 ^^^ roundF c.sf r ^^^ c.p[2 * k + 2]'(by omega)
    (l, r)) (lr.1 ^^^ c.p[0], lr.2)
  (out.2 ^^^ c.p[17], out.1)

/-- `StreamWord(bs, n, pos)` with `n` the length of `bs`: four bytes read cyclically, the first most significant, and the
new position (42_key_schedule.md rule R90). -/
def streamWord (bs : List Byte) (pos : Nat) : Word × Nat :=
  Nat.fold 4 (fun _ _ (x : Word × Nat) =>
    ((x.1 <<< 8) ||| (bs.getD x.2 0).zeroExtend 32, (x.2 + 1) % bs.length)) (0, pos)

/-- `KeyMix(key, klen)` on `P`: the key stream XORed into all eighteen words (42_key_schedule.md rule R91). -/
def keyMix (key : List Byte) (p : Vector Word 18) : Vector Word 18 :=
  (Nat.fold 18 (fun i hi (x : Vector Word 18 × Nat) =>
    let w := streamWord key x.2
    (x.1.set i (x.1[i] ^^^ w.1) hi, w.2)) (p, 0)).1

/-- `P[i] <- L; P[i+1] <- R` with `i = 2k` (42_key_schedule.md rule R92). -/
def writeP (k : Nat) (hk : k < 9) (c : CipherState) (lr : Word × Word) : CipherState :=
  { c with p := (c.p.set (2 * k) lr.1 (by omega)).set (2 * k + 1) lr.2 (by omega) }

/-- `SF[j] <- L; SF[j+1] <- R` with `j = 2k` (42_key_schedule.md rule R92). -/
def writeS (k : Nat) (hk : k < 512) (c : CipherState) (lr : Word × Word) : CipherState :=
  { c with sf := (c.sf.set (2 * k) lr.1 (by omega)).set (2 * k + 1) lr.2 (by omega) }

/-- What a key schedule carries from one encipherment to the next (10_state.md rule R22: temporaries of one command). -/
structure Filling where
  /-- `P` and `S` as they stand. -/
  cipher : CipherState
  /-- The running block `(L, R)`. -/
  lr : Word × Word
  /-- The salt position `sp`; `KS` does not use it. -/
  sp : Nat
  deriving DecidableEq, Repr

/-- One encipherment of `KS`: `(L, R) <- Encipher(L, R)`, written as the next pair (42_key_schedule.md rule R92). -/
def fillPlain (write : CipherState → Word × Word → CipherState) (x : Filling) : Filling :=
  let lr := encipher x.cipher x.lr
  { cipher := write x.cipher lr, lr := lr, sp := x.sp }

/-- One encipherment of `EKS`: two salt words XORed into the block first, left then right (42_key_schedule.md rule R94). -/
def fillSalted (salt : List Byte) (write : CipherState → Word × Word → CipherState) (x : Filling) : Filling :=
  let w := streamWord salt x.sp
  let v := streamWord salt w.2
  let lr := encipher x.cipher (x.lr.1 ^^^ w.1, x.lr.2 ^^^ v.1)
  { cipher := write x.cipher lr, lr := lr, sp := v.2 }

/-- The state of a schedule after `KeyMix`: the zero block, salt position 0 (42_key_schedule.md rules R92, R94). -/
def startFilling (key : List Byte) (c : CipherState) : Filling where
  cipher := { c with p := keyMix key c.p }
  lr := (0, 0)
  sp := 0

/-- The plain key schedule: `KeyMix`, 9 encipherments fill `P`, 512 fill `S` (42_key_schedule.md rule R92). -/
def keySchedule (key : List Byte) (c : CipherState) : CipherState :=
  let afterP := Nat.fold 9 (fun k hk x => fillPlain (writeP k hk) x) (startFilling key c)
  let afterS := Nat.fold 512 (fun k hk x => fillPlain (writeS k hk) x) afterP
  afterS.cipher

/-- The enhanced key schedule: as the plain one, with salt words XORed in before each encipherment and the salt position
carried on from the `P` fill to the `S` fill (42_key_schedule.md rule R94). -/
def enhancedKeySchedule (salt key : List Byte) (c : CipherState) : CipherState :=
  let afterP := Nat.fold 9 (fun k hk x => fillSalted salt (writeP k hk) x) (startFilling key c)
  let afterS := Nat.fold 512 (fun k hk x => fillSalted salt (writeS k hk) x) afterP
  afterS.cipher

end Sys2Proof.Machine
end

