-- ==== Sys2Proof/Machine/Flags.lean ====
section
/-! DEFINITION. The control state: the codes of `PHASE` and `ERR`, the `STATUS` view, and the phases in which each command is
legal (10_state.md rules R15, R18, R19). No command writes a flag as a side effect of arithmetic (rule R18). -/

namespace Sys2Proof.Machine

/-- The 2-bit encoding of `PHASE` (10_state.md rule R15). -/
def Phase.code : Phase → BitVec 2
  | .uninit => 0
  | .keysched => 1
  | .encipher => 2
  | .done => 3

/-- The 3-bit code of `ERR` (10_state.md rule R18, 60_exceptions.md rule R122). -/
def Err.code : Err → BitVec 3
  | .noError => 0
  | .opcode => 1
  | .field => 2
  | .phase => 3
  | .len => 4
  | .range => 5

/-- `STATUS`, CSR number 0: a view of `RLEN`, `ERR`, `LOADED` and `PHASE`; reserved bits read 0 (10_state.md rule R19). -/
def Block.status (b : Block) : Word :=
  0#16 ++ b.rlen ++ 0#1 ++ b.err.code ++ 0#1 ++ BitVec.ofBool b.loaded ++ b.phase.code

/-- The value of a CSR (10_state.md rules R19, R20). -/
def Block.csr (b : Block) : Csr → Word
  | .status => b.status
  | .ecmd => b.ecmd

/-! ## The phase table (10_state.md rule R15): where a command does not raise `E_PHASE` -/

/-- `INIT`: in `UNINIT`. -/
def Block.phaseInit (b : Block) : Bool := decide (b.phase = .uninit)

/-- `EKS`: in `UNINIT` with `LOADED = 1`. -/
def Block.phaseEks (b : Block) : Bool := decide (b.phase = .uninit) && b.loaded

/-- `KS`: in `UNINIT` with `LOADED = 1`, and in `KEYSCHED`. -/
def Block.phaseKs (b : Block) : Bool := (decide (b.phase = .uninit) && b.loaded) || decide (b.phase = .keysched)

/-- `LDD`: anywhere but in `DONE`. -/
def Block.phaseLdd (b : Block) : Bool := decide (b.phase ≠ .done)

/-- `ENC`: in `KEYSCHED` and `ENCIPHER`. -/
def Block.phaseEnc (b : Block) : Bool := decide (b.phase = .keysched) || decide (b.phase = .encipher)

/-- `STD`: in `ENCIPHER`. -/
def Block.phaseStd (b : Block) : Bool := decide (b.phase = .encipher)

end Sys2Proof.Machine
end

