-- ==== Sys2Proof/Machine/Engine.lean ====
section
/-! DEFINITION. The engine commands `INIT`, `EKS`, `KS`, `LDD`, `ENC`, `STD`. Each is a check in the order of 30_encoding.md
rule R51 and an effect; the word an error records is the command's own word, which the encoder gives (log 7). -/

namespace Sys2Proof.Machine

/-- `INIT` executed: `P`, `S` <- the initial tables, `LOADED <- 1` (40_init.md rule R70). -/
def initEffect (s : State) : State := (s.setCipher { p := pInit, sf := sInit }).setLoaded true

/-- `INIT` (40_init.md rule R70). -/
def execInit (s : State) : Result :=
  command (encode .init) (firstError s.phaseInit true true) initEffect s

/-- `EKS a, b, c` executed: the salted schedule over the key and the salt in `BUF`, `PHASE <- KEYSCHED`
(42_key_schedule.md rule R94). -/
def eksEffect (a b c : Field) (s : State) : State :=
  (s.setCipher (enhancedKeySchedule (s.buf.readBytes b.toNat Config.saltLen) (s.buf.readBytes a.toNat c.toNat)
    s.cipher)).setPhase .keysched

/-- `EKS a, b, c` (42_key_schedule.md rule R94). -/
def execEks (a b c : Field) (s : State) : Result :=
  command (encode (.eks a b c))
    (firstError s.phaseEks (lenOk c) (regionOk a c.toNat && regionOk b Config.saltLen)) (eksEffect a b c) s

/-- `KS a, c` executed: the plain schedule over the key in `BUF`, `PHASE <- KEYSCHED` (42_key_schedule.md rule R92). -/
def ksEffect (a c : Field) (s : State) : State :=
  (s.setCipher (keySchedule (s.buf.readBytes a.toNat c.toNat) s.cipher)).setPhase .keysched

/-- `KS a, c` (42_key_schedule.md rule R92). -/
def execKs (a c : Field) (s : State) : Result :=
  command (encode (.ks a c)) (firstError s.phaseKs (lenOk c) (regionOk a c.toNat)) (ksEffect a c) s

/-- `LDD a` executed: `D[i] <- be32(BUF[a+4i..a+4i+3])` for each `i` (41_encipher.md rule R85). -/
def lddEffect (a : Field) (s : State) : State :=
  s.setD (Vector.ofFn fun i : Fin 6 => s.buf.readWord (a.toNat + 4 * i.val))

/-- `LDD a` (41_encipher.md rule R85). -/
def execLdd (a : Field) (s : State) : Result :=
  command (encode (.ldd a)) (firstError s.phaseLdd true (regionOk a Config.dataBytes)) (lddEffect a) s

/-- `ENC d` executed: `(D[d], D[d+1]) <- Encipher(D[d], D[d+1])`, `PHASE <- ENCIPHER` (41_encipher.md rule R83). -/
def encEffect (d : Field) (s : State) : State :=
  (s.setD (setPair s.d d.toNat (encipher s.cipher (dWord s.d d.toNat, dWord s.d (d.toNat + 1))))).setPhase .encipher

/-- `ENC d` (41_encipher.md rule R83). -/
def execEnc (d : Field) (s : State) : Result :=
  command (encode (.enc d)) (firstError s.phaseEnc true (offsetOk d)) (encEffect d) s

/-- `STD b` executed: the 24 bytes of `D` at `b`, `PHASE <- DONE` (41_encipher.md rule R86). -/
def stdEffect (b : Field) (s : State) : State :=
  (s.setBuf (s.buf.writeBytes b.toNat (s.d.toList.flatMap bytesBe))).setPhase .done

/-- `STD b` (41_encipher.md rule R86). -/
def execStd (b : Field) (s : State) : Result :=
  command (encode (.std b)) (firstError s.phaseStd true (regionOk b Config.dataBytes)) (stdEffect b) s

end Sys2Proof.Machine
end

