-- ==== Sys2Proof/Machine/System.lean ====
section
/-! DEFINITION. The system command `RST` (60_exceptions.md rule R134). -/

namespace Sys2Proof.Machine

/-- `RST`: executed whatever `ERR` is, and cannot fail (30_encoding.md rule R51 step 1, 40_init.md rule R72). -/
def execRst (s : State) : Result := .next s.softReset

end Sys2Proof.Machine
end

