-- ==== Sys2Proof/Machine/Dispatch.lean ====
section
/-! DEFINITION. One arm per command. -/

namespace Sys2Proof.Machine

def exec (i : Instr) (s : State) : Host.Outcome State Fault Refusal :=
  match i with
  | .init => Sys2Proof.Machine.execInit s
  | .eks a b c => Sys2Proof.Machine.execEks a b c s
  | .ks a c => Sys2Proof.Machine.execKs a c s
  | .ldd a => Sys2Proof.Machine.execLdd a s
  | .enc d => Sys2Proof.Machine.execEnc d s
  | .std b => Sys2Proof.Machine.execStd b s
  | .b64e a b c => Sys2Proof.Machine.execB64e a b c s
  | .b64d a b c d => Sys2Proof.Machine.execB64d a b c d s
  | .rst => Sys2Proof.Machine.execRst s

end Sys2Proof.Machine
end

