-- ==== Sys2Proof/Machine/HostOps.lean ====
section
/-! DEFINITION. The six host operations of 00_scope.md rule R6. -/

namespace Sys2Proof.Machine

/-- The error a word that is no command raises (60_exceptions.md rule R125). -/
def DecodeError.toErr : DecodeError → Err
  | .opcode => .opcode
  | .field => .field

/-- A word that is no command: ignored while halted, else its error (30_encoding.md rule R51 steps 2 to 4). -/
def illegalWord (e : DecodeError) (w : Word) (s : State) : Result :=
  if s.halted then .next s else .next (s.raise (DecodeError.toErr e) w)

/-- `HostCmd(w)`: 30_encoding.md rule R51. -/
def hostCmd (w : Word) (s : State) : Result :=
  match decode w with
  | .ok i => exec i s
  | .error e => illegalWord e w s

/-- `HostWriteBuf(addr, v)`: `BUF[addr] <- v`, in any phase and also while halted (20_memory.md rule R33). -/
def hostWriteBuf (addr : Field) (v : Byte) (s : State) : Result := .next (s.setBuf (s.buf.write addr.toNat v))

/-- `HostReadBuf(addr)`: returns `BUF[addr]`, changes nothing (20_memory.md rule R33). -/
def hostReadBuf (addr : Field) (s : State) : Result := .next (s.reply (.byte (s.buf.read addr.toNat)))

/-- `HostReadCsr(n)`: returns the register, changes nothing (10_state.md rules R19, R20). -/
def hostReadCsr (n : Csr) (s : State) : Result := .next (s.reply (.word (s.csr n)))

/-- `HardReset` (70_reset_and_hazards.md rule R140). -/
def hostHardReset (s : State) : Result := .next s.hardReset

/-- The operation the host has issued (00_scope.md rule R6). -/
def hostOp (o : HostOp) (s : State) : Result :=
  match o with
  | .cmd w => hostCmd w s
  | .writeBuf addr v => hostWriteBuf addr v s
  | .readBuf addr => hostReadBuf addr s
  | .readCsr n => hostReadCsr n s
  | .hardReset => hostHardReset s

end Sys2Proof.Machine
end

