-- ==== Sys2Proof/Machine/Step.lean ====
section
/-! DEFINITION. One step is one host operation, the oldest pending one (00_scope.md rule R6, 20_memory.md rule R40). -/

namespace Sys2Proof.Machine

/-- Take the oldest pending host operation and perform it; with none pending the block holds its state and does nothing
(60_exceptions.md rule R139, log 5). -/
def step (s : State) : Host.Outcome State Fault Refusal :=
  match s.pending with
  | [] => .next s
  | o :: rest => hostOp o (s.setPending rest)

/-- The host issues `HostCmd` of the word `w` next: the block fetches no command, so this is where the next one comes from
(10_state.md rule R16, log 6). -/
def State.withFetchWord (s : State) (nbits w : Nat) : State :=
  s.setPending (.cmd (tableWord nbits w) :: s.pending)

end Sys2Proof.Machine
end

