-- ==== Sys2Proof/Safety.lean ====
section
/-! DEFINITION. The terms in which claims are made: the error a command word raises, as the tables of 60_exceptions.md rule
R122 give it; the invariant of the block; what the host can see of a state; a word of a cyclic byte stream. -/

namespace Sys2Proof.Machine

/-- The first entry whose condition holds (60_exceptions.md rule R129). -/
def firstOf : List (Err × Bool) → Err
  | [] => .noError
  | (e, holds) :: rest => if holds then e else firstOf rest

/-- The error a command word raises in a block that is not halted: the second table of 60_exceptions.md rule R122, in the
order of rule R129, in plain numbers; `noError` where the command is executed. -/
def errorOf (w : Word) (blk : Block) : Err :=
  let a := (aField w).toNat
  let b := (bField w).toNat
  let c := (cField w).toNat
  let d := (dField w).toNat
  match (opField w).toNat with
  | 1 => firstOf [(.field, a ≠ 0 ∨ b ≠ 0 ∨ c ≠ 0 ∨ d ≠ 0), (.phase, blk.phase ≠ .uninit)]
  | 2 => firstOf [(.field, d ≠ 0), (.phase, ¬(blk.phase = .uninit ∧ blk.loaded = true)), (.len, c = 0),
      (.range, a + c > 128 ∨ b + 16 > 128)]
  | 3 => firstOf [(.field, b ≠ 0 ∨ d ≠ 0),
      (.phase, ¬((blk.phase = .uninit ∧ blk.loaded = true) ∨ blk.phase = .keysched)), (.len, c = 0), (.range, a + c > 128)]
  | 4 => firstOf [(.field, b ≠ 0 ∨ c ≠ 0 ∨ d ≠ 0), (.phase, blk.phase = .done), (.range, a + 24 > 128)]
  | 5 => firstOf [(.field, a ≠ 0 ∨ b ≠ 0 ∨ c ≠ 0), (.phase, ¬(blk.phase = .keysched ∨ blk.phase = .encipher)),
      (.range, d > 4)]
  | 6 => firstOf [(.field, a ≠ 0 ∨ c ≠ 0 ∨ d ≠ 0), (.phase, blk.phase ≠ .encipher), (.range, b + 24 > 128)]
  | 8 => firstOf [(.field, d ≠ 0), (.len, c = 0), (.range, a + c > 128 ∨ b + (4 * c + 2) / 3 > 128)]
  | 9 => firstOf [(.len, d = 0), (.range, a + c > 128 ∨ b + d > 128)]
  | 15 => firstOf [(.field, a ≠ 0 ∨ b ≠ 0 ∨ c ≠ 0 ∨ d ≠ 0)]
  | _ => .opcode

/-- What holds of the block in every state a host can bring it to. -/
structure State.Inv (s : State) : Prop where
  /-- `BUF` is in canonical form, every listed address below 128 (10_state.md rule R14, log 3). -/
  bufWf : s.buf.wf = true
  /-- `RLEN` is 0..128 (10_state.md rule R18). -/
  rlenLe : s.rlen.toNat ≤ 128
  /-- `ECMD` is 0 while `ERR` is 0; while halted it is a word that raises `ERR` in the phase the block stands in
  (10_state.md rule R20, 60_exceptions.md rules R121, R123). -/
  recorded : (s.err = .noError ∧ s.ecmd = 0) ∨ (s.err ≠ .noError ∧ errorOf s.ecmd s.toBlock = s.err)
  /-- Nothing is loaded: the block is in `UNINIT` and `P`, `S` are zero (10_state.md rules R15, R17, R23). -/
  unloaded : s.loaded = false → s.phase = .uninit ∧ s.cipher = Block.zero.cipher
  /-- Loaded and no key mixed in: `P`, `S` are the initial tables (10_state.md rule R17). -/
  fresh : s.loaded = true → s.phase = .uninit → s.cipher = { p := pInit, sf := sInit }

/-- The two states differ in `P`, `S` and `D` at most: no host operation returns those (00_scope.md rule R7). -/
structure SameForHost (s t : State) : Prop where
  buf : s.buf = t.buf
  phase : s.phase = t.phase
  loaded : s.loaded = t.loaded
  err : s.err = t.err
  rlen : s.rlen = t.rlen
  ecmd : s.ecmd = t.ecmd
  pending : s.pending = t.pending
  replies : s.replies = t.replies

/-- The word that starts at byte position `pos` of the bytes `bs 0, ..., bs (n-1)` read cyclically, the first byte most
significant (42_key_schedule.md rule R90). -/
def cyclicWord (bs : Nat → Byte) (n pos : Nat) : Word :=
  be32 (bs (pos % n)) (bs ((pos + 1) % n)) (bs ((pos + 2) % n)) (bs ((pos + 3) % n))

end Sys2Proof.Machine
end

