-- ==== Sys2Proof/WellFormed.lean ====
section
/-! DEFINITION. When the operands of a command are legal whatever the state is: the lengths of 30_encoding.md rule R53 are in
range, and every region of `BUF` the command names ends at or below address 128 (20_memory.md rule R36). Written in plain
numbers, as the "legal" columns of spec/opcode_table.json give it, apart from the checks the machine itself makes. -/

namespace Sys2Proof

/-- A region of `n` bytes at address `x` lies inside `BUF`: `x + n ≤ 128` as integers (20_memory.md rule R36). -/
def inBuf (x : Field) (n : Nat) : Bool := decide (x.toNat + n ≤ Config.bufSize)

/-- The operands of the command are legal in every state (30_encoding.md rule R53, 60_exceptions.md rule R122). -/
def Instr.wellFormed : Instr → Bool
  | .init => true
  | .eks a b c => decide (1 ≤ c.toNat) && inBuf a c.toNat && inBuf b Config.saltLen
  | .ks a c => decide (1 ≤ c.toNat) && inBuf a c.toNat
  | .ldd a => inBuf a Config.dataBytes
  | .enc d => decide (d.toNat ≤ 4)
  | .std b => inBuf b Config.dataBytes
  | .b64e a b c => decide (1 ≤ c.toNat) && inBuf a c.toNat && inBuf b ((4 * c.toNat + 2) / 3)
  | .b64d a b c d => decide (1 ≤ d.toNat) && inBuf a c.toNat && inBuf b d.toNat
  | .rst => true

end Sys2Proof
end

