-- ==== Sys2Proof/Certificates/Slice0/Obligations.lean ====
section
/-! DEFINITION. The statements about the model, most of them the numbered rules of spec/. `OBLIGATIONS.json` says of each which
rule it formalises. A frame is written as an equation `t = s with some elements of t`: every element that is not named is
unchanged, the model's own fields `pending` and `replies` with them (logs 1 and 2; for the resets log 8). A command's word is
`encode` of the command. -/

open Sys2Proof Sys2Proof.Machine

/-! ## Steps and host operations -/

/-- The oldest pending operation is the one performed: a word that decodes runs its command, a word that does not is ignored
while halted and else raises its error; with nothing pending the block holds its state (30_encoding.md rule R51; that the
operations stand in a list, and the idle step, are the model's choices, logs 1 and 5). -/
def Obligations.StepRunsDecodedCommand : Prop :=
  ∀ (s : State) (w : Word) (rest : List HostOp), s.pending = .cmd w :: rest →
    (∀ i, decode w = .ok i → step s = exec i { s with pending := rest }) ∧
    (decode w = .error .opcode → s.err = .noError →
      step s = .next { s with pending := rest, err := .opcode, ecmd := w }) ∧
    (decode w = .error .field → s.err = .noError →
      step s = .next { s with pending := rest, err := .field, ecmd := w }) ∧
    (∀ e, decode w = .error e → s.err ≠ .noError → step s = .next { s with pending := rest })

/-- With no host operation pending the block holds its state (60_exceptions.md rule R139; log 5). -/
def Obligations.IdleBlockHoldsItsState : Prop := ∀ s : State, s.pending = [] → step s = .next s

/-- No state is left without a next state: every host operation completes (60_exceptions.md rule R120). -/
def Obligations.EveryStepHasNextState : Prop := ∀ s : State, ∃ t, step s = .next t

/-- The host's access to `BUF`, in every phase and while halted (20_memory.md rule R33); that a value read is added to
`replies` is the model's form of "returns" (log 2). -/
def Obligations.HostBufferAccess : Prop :=
  ∀ (s : State) (addr : Field) (v : Byte), s.buf.wf = true →
    (∃ t, hostOp (.writeBuf addr v) s = .next t ∧ t = { s with buf := t.buf } ∧ t.buf.read addr.toNat = v ∧
      ∀ a, a ≠ addr.toNat → t.buf.read a = s.buf.read a) ∧
    hostOp (.readBuf addr) s = .next { s with replies := s.replies ++ [.byte (s.buf.read addr.toNat)] }

/-- A read returns the latest write to its address before it, whatever other writes, reads and register reads stand between
(20_memory.md rule R40); the order of the operations is `pending`, what they return is `replies` (logs 1, 2). -/
def Obligations.ReadReturnsLatestWrite : Prop :=
  ∀ (s : State) (addr : Field) (v : Byte) (between rest : List HostOp), s.buf.wf = true →
    s.pending = .writeBuf addr v :: (between ++ .readBuf addr :: rest) →
    (∀ o ∈ between, (∃ x u, o = .writeBuf x u ∧ x ≠ addr) ∨ (∃ x, o = .readBuf x) ∨ (∃ n, o = .readCsr n)) →
    ∃ t : State, core.run (between.length + 2) s = .next t ∧ t.replies.getLast? = some (.byte v) ∧ t.pending = rest

/-- `STATUS` is `PHASE` in bits 1:0, `LOADED` in bit 2, `ERR` in bits 6:4, `RLEN` in bits 15:8, and 0 elsewhere; reading it
changes nothing (10_state.md rule R19) but the model's list of the values read (log 2). -/
def Obligations.StatusReadsItsFields : Prop :=
  ∀ s : State, ∃ v : Word, hostOp (.readCsr .status) s = .next { s with replies := s.replies ++ [.word v] } ∧
    v.toNat = (match s.phase with | .uninit => 0 | .keysched => 1 | .encipher => 2 | .done => 3) +
      2 ^ 2 * (if s.loaded = true then 1 else 0) +
      2 ^ 4 * (match s.err with | .noError => 0 | .opcode => 1 | .field => 2 | .phase => 3 | .len => 4 | .range => 5) +
      2 ^ 8 * s.rlen.toNat

/-- `ECMD` is read without side effect; it is 0 while `ERR` is 0 and the failing word after an error; it changes only when a
command fails and at the two resets; the control state changes by commands and `HardReset` alone (10_state.md rule R20; what
is read is added to `replies`, log 2). -/
def Obligations.EcmdHoldsFailingWord : Prop :=
  ∀ (s t : State) (o : HostOp), s.Inv → hostOp o s = .next t →
    (o = .readCsr .ecmd → t = { s with replies := s.replies ++ [.word s.ecmd] }) ∧
    (t.err = .noError → t.ecmd = 0) ∧
    (s.err = .noError → t.err ≠ .noError → ∃ w, o = .cmd w ∧ t.ecmd = w) ∧
    (t.ecmd ≠ s.ecmd → (s.err = .noError ∧ t.err ≠ .noError) ∨ (t.ecmd = 0 ∧ (o = .cmd 0xF0000000 ∨ o = .hardReset))) ∧
    (o ≠ .hardReset → (∀ w, o ≠ .cmd w) →
      t.phase = s.phase ∧ t.loaded = s.loaded ∧ t.err = s.err ∧ t.rlen = s.rlen ∧ t.ecmd = s.ecmd)

/-- 70_reset_and_hazards.md rule R140: `HardReset` at any time, and power-on, leave every element zero. -/
def Obligations.HardResetClearsEverything : Prop :=
  ∀ s : State, ∃ t, hostOp .hardReset s = .next t ∧ t.toBlock = State.reset.toBlock ∧
    (∀ i : Fin 18, t.cipher.p[i] = 0) ∧ (∀ k : Fin 1024, t.cipher.sf[k] = 0) ∧ (∀ i : Fin 6, t.d[i] = 0) ∧
    (∀ a, t.buf.read a = 0) ∧ t.phase = .uninit ∧ t.loaded = false ∧ t.err = .noError ∧ t.rlen = 0 ∧ t.ecmd = 0 ∧
    t.status = 0

/-- 70_reset_and_hazards.md rule R141: the two resets differ in `BUF` alone, and `RST` is executed while halted too. -/
def Obligations.TwoResetsDifferInBuf : Prop :=
  ∀ s : State, ∃ t u, hostOp .hardReset s = .next t ∧ hostOp (.cmd 0xF0000000) s = .next u ∧
    t.toBlock = { u.toBlock with buf := t.buf } ∧ (∀ a, t.buf.read a = 0) ∧ u.buf = s.buf

/-! ## Encoding -/

/-- One word of each command, written out from the table of 30_encoding.md rule R53; those of `EKS`, `KS`, `ENC`, `STD` and
`B64D` are the five examples of rule R57. -/
def Obligations.SampleWordsDecode : Prop :=
  decode 0b00010000000000000000000000000000 = .ok .init ∧
  decode 0b00100000000100100000000010000000 = .ok (.eks 0 72 1) ∧
  decode 0b00110000000000000000010000000000 = .ok (.ks 0 8) ∧
  decode 0b01001011000000000000000000000000 = .ok (.ldd 88) ∧
  decode 0b01010000000000000000000000000100 = .ok (.enc 4) ∧
  decode 0b01100000000101100000000000000000 = .ok (.std 88) ∧
  decode 0b10000000000001000000001010000000 = .ok (.b64e 0 16 5) ∧
  decode 0b10010000000100100000101100010000 = .ok (.b64d 0 72 22 16) ∧
  decode 0b11110000000000000000000000000000 = .ok .rst

/-- 30_encoding.md rule R50: where the five fields of a word stand. -/
def Obligations.CommandFormat : Prop :=
  (∀ w : Word, w = opField w ++ aField w ++ bField w ++ cField w ++ dField w ∧
    (opField w).toNat = w.toNat / 2 ^ 28 ∧ (aField w).toNat = w.toNat / 2 ^ 21 % 2 ^ 7 ∧
    (bField w).toNat = w.toNat / 2 ^ 14 % 2 ^ 7 ∧ (cField w).toNat = w.toNat / 2 ^ 7 % 2 ^ 7 ∧
    (dField w).toNat = w.toNat % 2 ^ 7) ∧
  (∀ (op : BitVec 4) (a b c d : Field),
    (pack op a b c d).toNat =
      op.toNat * 2 ^ 28 + a.toNat * 2 ^ 21 + b.toNat * 2 ^ 14 + c.toNat * 2 ^ 7 + d.toNat)

/-- Decoding the word of a command gives the command, whatever its operands. -/
def Obligations.DecodeOfEncode : Prop := ∀ i : Instr, decode (encode i) = .ok i

/-- A word that decodes is the word of what it decodes to: no bit of it is dropped. -/
def Obligations.EncodeOfDecode : Prop := ∀ (w : Word) (i : Instr), decode w = .ok i → encode i = w

/-- 30_encoding.md rule R53: a word selects the command of a row exactly when `w and mask = match`, its fields are then the
word's own, and a word that has the row's opcode but fails the mask decodes to no other command. -/
def Obligations.MaskAndMatchSelectRow : Prop :=
  ∀ (w : Word) (row : Instr),
    (w &&& rowMask row = rowMatch row ↔ ∃ i, decode w = .ok i ∧ rowMatch i = rowMatch row) ∧
    (opField w = opField (rowMatch row) → w &&& rowMask row ≠ rowMatch row → decode w = .error .field) ∧
    (∀ a b c d, decode w = .ok (.b64d a b c d) → a = aField w ∧ b = bField w ∧ c = cField w ∧ d = dField w) ∧
    (∀ a b c, decode w = .ok (.b64e a b c) ∨ decode w = .ok (.eks a b c) → a = aField w ∧ b = bField w ∧ c = cField w) ∧
    (∀ a c, decode w = .ok (.ks a c) → a = aField w ∧ c = cField w) ∧
    (∀ a, decode w = .ok (.ldd a) → a = aField w) ∧
    (∀ d, decode w = .ok (.enc d) → d = dField w) ∧
    (∀ b, decode w = .ok (.std b) → b = bField w)

/-- 30_encoding.md rule R55: a word with an unused opcode raises `E_OPCODE`, a word with a used opcode that is no command
raises `E_FIELD`, and there is no third kind of illegal word. -/
def Obligations.IllegalWordsRaise : Prop :=
  ∀ (w : Word) (s : State), s.err = .noError →
    ((opField w).toNat ∈ [0, 7, 10, 11, 12, 13, 14] → hostCmd w s = .next { s with err := .opcode, ecmd := w }) ∧
    ((opField w).toNat ∉ [0, 7, 10, 11, 12, 13, 14] → (∀ i, encode i ≠ w) →
      hostCmd w s = .next { s with err := .field, ecmd := w }) ∧
    (∀ i, decode w = .ok i → (opField w).toNat ∉ [0, 7, 10, 11, 12, 13, 14] ∧ encode i = w) ∧
    hostCmd 0x00000000 s = .next { s with err := .opcode, ecmd := 0x00000000 } ∧
    hostCmd 0xFFFFFFFF s = .next { s with err := .field, ecmd := 0xFFFFFFFF }

/-! ## Errors and halting -/

/-- 30_encoding.md rule R51 with the tables of 60_exceptions.md rule R122: `RST` first, then halted, then the errors in their
order, then the command, which cannot fail any more. -/
def Obligations.EveryWordHasOneOutcome : Prop :=
  ∀ (w : Word) (s : State),
    (w = 0xF0000000 → hostCmd w s = exec .rst s) ∧
    (w ≠ 0xF0000000 → s.err ≠ .noError → hostCmd w s = .next s) ∧
    (w ≠ 0xF0000000 → s.err = .noError → errorOf w s.toBlock ≠ .noError →
      hostCmd w s = .next { s with err := errorOf w s.toBlock, ecmd := w }) ∧
    (w ≠ 0xF0000000 → s.err = .noError → errorOf w s.toBlock = .noError →
      ∃ i t, decode w = .ok i ∧ i.wellFormed = true ∧ hostCmd w s = exec i s ∧ exec i s = .next t ∧
        t.err = .noError ∧ t.ecmd = s.ecmd)

/-- The codes of 60_exceptions.md rule R122 as the host reads them in bits 6:4 of `STATUS` after a command of a block that was
not halted: the code of the first error of the rule's second table; 6 and 7 are never produced. -/
def Obligations.ErrorCodeInStatus : Prop :=
  ∀ (w : Word) (s t : State), s.err = .noError → hostCmd w s = .next t →
    (t.status.toNat / 2 ^ 4 % 2 ^ 3 = match errorOf w s.toBlock with
      | .noError => 0 | .opcode => 1 | .field => 2 | .phase => 3 | .len => 4 | .range => 5) ∧
    (errorOf w s.toBlock ≠ .noError → t.ecmd = w)

/-- 60_exceptions.md rule R121: a command that fails sets `ERR` and `ECMD` and nothing else. -/
def Obligations.FailedCommandChangesOnlyErrorRegisters : Prop :=
  ∀ (w : Word) (s t : State), s.err = .noError → hostCmd w s = .next t → t.err ≠ .noError →
    t = { s with err := errorOf w s.toBlock, ecmd := w }

/-- 60_exceptions.md rule R123: while halted every command word but `RST` is ignored, and the host's reads and writes work as
they do when the block is not halted; that a value read is added to `replies` is the model's form of "returns" (log 2). -/
def Obligations.HaltedBlockIgnoresCommands : Prop :=
  ∀ (s : State), s.err ≠ .noError →
    (∀ w, w ≠ 0xF0000000 → hostCmd w s = .next s) ∧
    (∀ i, i ≠ .rst → exec i s = .next s) ∧
    (∀ (o : HostOp), (∀ w, o ≠ .cmd w) → o ≠ .hardReset →
      ∀ u, hostOp o { s with err := .noError } = .next u →
        ∃ t, hostOp o s = .next t ∧ t.toBlock = { u.toBlock with err := s.err } ∧
          (o ≠ .readCsr .status → t.replies = u.replies))

/-- 60_exceptions.md rule R124: `ERR` and `ECMD` of a halted block stay as they are under every host operation but `RST` and
`HardReset`, and those two also clear `P`, `S`, `D`, `PHASE`, `LOADED` and `RLEN`. -/
def Obligations.OnlyResetsClearErrors : Prop :=
  ∀ (s : State) (o : HostOp), s.err ≠ .noError → ∃ t, hostOp o s = .next t ∧
    (o ≠ .cmd 0xF0000000 → o ≠ .hardReset → t.err = s.err ∧ t.ecmd = s.ecmd ∧ t.cipher = s.cipher ∧ t.d = s.d ∧
      t.phase = s.phase ∧ t.loaded = s.loaded ∧ t.rlen = s.rlen) ∧
    (o = .cmd 0xF0000000 ∨ o = .hardReset → t.err = .noError ∧ t.ecmd = 0 ∧ (∀ i : Fin 18, t.cipher.p[i] = 0) ∧
      (∀ k : Fin 1024, t.cipher.sf[k] = 0) ∧ (∀ i : Fin 6, t.d[i] = 0) ∧ t.phase = .uninit ∧ t.loaded = false ∧ t.rlen = 0)

/-! ## The commands -/

/-- 40_init.md rule R72: `RST` is executed whatever `ERR` is, clears everything but `BUF`, and is the one word `0xF0000000`. -/
def Obligations.RstMeaning : Prop :=
  ∀ s : State, encode .rst = 0xF0000000 ∧ hostCmd 0xF0000000 s = exec .rst s ∧
    (∃ t, exec .rst s = .next t ∧ t.buf = s.buf ∧ (∀ i : Fin 18, t.cipher.p[i] = 0) ∧
      (∀ k : Fin 1024, t.cipher.sf[k] = 0) ∧ (∀ i : Fin 6, t.d[i] = 0) ∧ t.phase = .uninit ∧ t.loaded = false ∧
      t.err = .noError ∧ t.rlen = 0 ∧ t.ecmd = 0 ∧ t.status = 0) ∧
    (∀ w, (opField w).toNat = 15 → w ≠ 0xF0000000 →
      (s.err = .noError → hostCmd w s = .next { s with err := .field, ecmd := w }) ∧
      (s.err ≠ .noError → hostCmd w s = .next s))

/-- 40_init.md rule R70: `INIT` loads the tables in `UNINIT`, once or again, and is refused in every other phase. -/
def Obligations.InitMeaning : Prop :=
  ∀ s : State, s.err = .noError → encode .init = 0x10000000 ∧
    (∀ w, (opField w).toNat = 1 → w ≠ 0x10000000 → hostCmd w s = .next { s with err := .field, ecmd := w }) ∧
    (s.phase ≠ .uninit → exec .init s = .next { s with err := .phase, ecmd := 0x10000000 }) ∧
    (s.phase = .uninit → ∃ t, exec .init s = .next t ∧ t = { s with cipher := t.cipher, loaded := true } ∧
      (∀ i : Fin 18, t.cipher.p[i] = pInit[i]) ∧ (∀ k : Fin 1024, t.cipher.sf[k] = sInit[k]) ∧
      exec .init t = .next t)

/-- 42_key_schedule.md rule R92: `KS a, c`. `C n` and `B n` are `P`, `S` and the running block after `n` of the 521
encipherments; each encipherment takes the block and the tables the one before it left. -/
def Obligations.KsMeaning : Prop :=
  ∀ (s : State) (a c : Field), s.err = .noError →
    (encode (.ks a c)).toNat = 0x30000000 + a.toNat * 2 ^ 21 + c.toNat * 2 ^ 7 ∧
    (∀ w, (opField w).toNat = 3 → bField w ≠ 0 ∨ dField w ≠ 0 → hostCmd w s = .next { s with err := .field, ecmd := w }) ∧
    (¬((s.phase = .uninit ∧ s.loaded = true) ∨ s.phase = .keysched) →
      exec (.ks a c) s = .next { s with err := .phase, ecmd := encode (.ks a c) }) ∧
    ((s.phase = .uninit ∧ s.loaded = true) ∨ s.phase = .keysched →
      (c.toNat = 0 → exec (.ks a c) s = .next { s with err := .len, ecmd := encode (.ks a c) }) ∧
      (1 ≤ c.toNat → 128 < a.toNat + c.toNat →
        exec (.ks a c) s = .next { s with err := .range, ecmd := encode (.ks a c) }) ∧
      (1 ≤ c.toNat → a.toNat + c.toNat ≤ 128 →
        ∃ (C : Nat → CipherState) (B : Nat → Word × Word),
          exec (.ks a c) s = .next { s with cipher := C 521, phase := .keysched } ∧
          (∀ i : Fin 18, (C 0).p[i] =
            s.cipher.p[i] ^^^ cyclicWord (fun j => s.buf.read (a.toNat + j)) c.toNat (4 * i.val)) ∧
          (C 0).sf = s.cipher.sf ∧ B 0 = (0, 0) ∧
          (∀ n, n < 521 → B (n + 1) = encipher (C n) (B n)) ∧
          (∀ n (h : n < 9), C (n + 1) = { C n with
            p := ((C n).p.set (2 * n) (B (n + 1)).1).set (2 * n + 1) (B (n + 1)).2 }) ∧
          (∀ n (h : n < 512), C (n + 10) = { C (n + 9) with
            sf := ((C (n + 9)).sf.set (2 * n) (B (n + 10)).1).set (2 * n + 1) (B (n + 10)).2 })))

/-- 42_key_schedule.md rule R94: `EKS a, b, c`. As `KS`, with two of the four salt words XORed into the block before each
encipherment: words 0 and 1 before the first, 2 and 3 before the second, and so on through both fills. -/
def Obligations.EksMeaning : Prop :=
  ∀ (s : State) (a b c : Field), s.err = .noError →
    (encode (.eks a b c)).toNat = 0x20000000 + a.toNat * 2 ^ 21 + b.toNat * 2 ^ 14 + c.toNat * 2 ^ 7 ∧
    (∀ w, (opField w).toNat = 2 → dField w ≠ 0 → hostCmd w s = .next { s with err := .field, ecmd := w }) ∧
    (¬(s.phase = .uninit ∧ s.loaded = true) →
      exec (.eks a b c) s = .next { s with err := .phase, ecmd := encode (.eks a b c) }) ∧
    (s.phase = .uninit → s.loaded = true →
      (c.toNat = 0 → exec (.eks a b c) s = .next { s with err := .len, ecmd := encode (.eks a b c) }) ∧
      (1 ≤ c.toNat → 128 < a.toNat + c.toNat ∨ 128 < b.toNat + 16 →
        exec (.eks a b c) s = .next { s with err := .range, ecmd := encode (.eks a b c) }) ∧
      (1 ≤ c.toNat → a.toNat + c.toNat ≤ 128 → b.toNat + 16 ≤ 128 →
        ∃ (C : Nat → CipherState) (B : Nat → Word × Word) (W : Nat → Word),
          exec (.eks a b c) s = .next { s with cipher := C 521, phase := .keysched } ∧
          (∀ k, k < 4 → W k = be32 (s.buf.read (b.toNat + 4 * k)) (s.buf.read (b.toNat + 4 * k + 1))
            (s.buf.read (b.toNat + 4 * k + 2)) (s.buf.read (b.toNat + 4 * k + 3))) ∧
          (∀ i : Fin 18, (C 0).p[i] =
            s.cipher.p[i] ^^^ cyclicWord (fun j => s.buf.read (a.toNat + j)) c.toNat (4 * i.val)) ∧
          (C 0).sf = s.cipher.sf ∧ B 0 = (0, 0) ∧
          (∀ n, n < 521 → B (n + 1) =
            encipher (C n) ((B n).1 ^^^ W (2 * n % 4), (B n).2 ^^^ W ((2 * n + 1) % 4))) ∧
          (∀ n (h : n < 9), C (n + 1) = { C n with
            p := ((C n).p.set (2 * n) (B (n + 1)).1).set (2 * n + 1) (B (n + 1)).2 }) ∧
          (∀ n (h : n < 512), C (n + 10) = { C (n + 9) with
            sf := ((C (n + 9)).sf.set (2 * n) (B (n + 10)).1).set (2 * n + 1) (B (n + 10)).2 })))

/-- 41_encipher.md rule R85: `LDD a`. -/
def Obligations.LddMeaning : Prop :=
  ∀ (s : State) (a : Field), s.err = .noError →
    (encode (.ldd a)).toNat = 0x40000000 + a.toNat * 2 ^ 21 ∧
    (∀ w, (opField w).toNat = 4 → bField w ≠ 0 ∨ cField w ≠ 0 ∨ dField w ≠ 0 →
      hostCmd w s = .next { s with err := .field, ecmd := w }) ∧
    (s.phase = .done → exec (.ldd a) s = .next { s with err := .phase, ecmd := encode (.ldd a) }) ∧
    (s.phase ≠ .done → 104 < a.toNat → exec (.ldd a) s = .next { s with err := .range, ecmd := encode (.ldd a) }) ∧
    (s.phase ≠ .done → a.toNat ≤ 104 → ∃ t, exec (.ldd a) s = .next t ∧ t = { s with d := t.d } ∧
      ∀ i : Fin 6, t.d[i] = be32 (s.buf.read (a.toNat + 4 * i.val)) (s.buf.read (a.toNat + 4 * i.val + 1))
        (s.buf.read (a.toNat + 4 * i.val + 2)) (s.buf.read (a.toNat + 4 * i.val + 3)))

/-- 41_encipher.md rule R83: `ENC d`, the pair `D[d]`, `D[d+1]` enciphered in place, odd offsets included. -/
def Obligations.EncMeaning : Prop :=
  ∀ (s : State) (d : Field), s.err = .noError →
    (encode (.enc d)).toNat = 0x50000000 + d.toNat ∧
    (∀ w, (opField w).toNat = 5 → aField w ≠ 0 ∨ bField w ≠ 0 ∨ cField w ≠ 0 →
      hostCmd w s = .next { s with err := .field, ecmd := w }) ∧
    (¬(s.phase = .keysched ∨ s.phase = .encipher) →
      exec (.enc d) s = .next { s with err := .phase, ecmd := encode (.enc d) }) ∧
    (s.phase = .keysched ∨ s.phase = .encipher →
      (4 < d.toNat → exec (.enc d) s = .next { s with err := .range, ecmd := encode (.enc d) }) ∧
      (∀ h : d.toNat ≤ 4, ∃ t, exec (.enc d) s = .next t ∧ t = { s with d := t.d, phase := .encipher } ∧
        (t.d[d.toNat], t.d[d.toNat + 1]) = encipher s.cipher (s.d[d.toNat], s.d[d.toNat + 1]) ∧
        ∀ k : Fin 6, k.val ≠ d.toNat → k.val ≠ d.toNat + 1 → t.d[k] = s.d[k]))

/-- 41_encipher.md rule R86: `STD b`. -/
def Obligations.StdMeaning : Prop :=
  ∀ (s : State) (b : Field), s.err = .noError → s.buf.wf = true →
    (encode (.std b)).toNat = 0x60000000 + b.toNat * 2 ^ 14 ∧
    (∀ w, (opField w).toNat = 6 → aField w ≠ 0 ∨ cField w ≠ 0 ∨ dField w ≠ 0 →
      hostCmd w s = .next { s with err := .field, ecmd := w }) ∧
    (s.phase ≠ .encipher → exec (.std b) s = .next { s with err := .phase, ecmd := encode (.std b) }) ∧
    (s.phase = .encipher → 104 < b.toNat → exec (.std b) s = .next { s with err := .range, ecmd := encode (.std b) }) ∧
    (s.phase = .encipher → b.toNat ≤ 104 → ∃ t, exec (.std b) s = .next t ∧ t = { s with buf := t.buf, phase := .done } ∧
      (∀ (i : Fin 6) (j : Fin 4),
        t.buf.read (b.toNat + 4 * i.val + j.val) = s.d[i].extractLsb' (24 - 8 * j.val) 8) ∧
      ∀ x, x < b.toNat ∨ b.toNat + 24 ≤ x → t.buf.read x = s.buf.read x)

/-- 43_base64.md rule R104: `B64E a, b, c`; the characters are computed from the old source bytes even where the regions
overlap (20_memory.md rule R38). -/
def Obligations.B64eMeaning : Prop :=
  ∀ (s : State) (a b c : Field), s.err = .noError → s.buf.wf = true →
    (encode (.b64e a b c)).toNat = 0x80000000 + a.toNat * 2 ^ 21 + b.toNat * 2 ^ 14 + c.toNat * 2 ^ 7 ∧
    (∀ w, (opField w).toNat = 8 → dField w ≠ 0 → hostCmd w s = .next { s with err := .field, ecmd := w }) ∧
    (c.toNat = 0 → exec (.b64e a b c) s = .next { s with err := .len, ecmd := encode (.b64e a b c) }) ∧
    (1 ≤ c.toNat → 128 < a.toNat + c.toNat ∨ 128 < b.toNat + (4 * c.toNat + 2) / 3 →
      exec (.b64e a b c) s = .next { s with err := .range, ecmd := encode (.b64e a b c) }) ∧
    (1 ≤ c.toNat → a.toNat + c.toNat ≤ 128 → b.toNat + (4 * c.toNat + 2) / 3 ≤ 128 →
      ∃ t, exec (.b64e a b c) s = .next t ∧ t = { s with buf := t.buf, rlen := t.rlen } ∧
        t.rlen.toNat = (4 * c.toNat + 2) / 3 ∧
        (∀ j, j < (4 * c.toNat + 2) / 3 →
          ((b64Encode ((List.range c.toNat).map fun k => s.buf.read (a.toNat + k)))[j]?).map symChar =
            some (t.buf.read (b.toNat + j))) ∧
        ∀ x, x < b.toNat ∨ b.toNat + (4 * c.toNat + 2) / 3 ≤ x → t.buf.read x = s.buf.read x)

/-- 43_base64.md rule R108: `B64D a, b, c, d`; the destination is checked for the whole limit and written only as far as the
decoder got. -/
def Obligations.B64dMeaning : Prop :=
  ∀ (s : State) (a b c d : Field), s.err = .noError → s.buf.wf = true →
    (encode (.b64d a b c d)).toNat =
      0x90000000 + a.toNat * 2 ^ 21 + b.toNat * 2 ^ 14 + c.toNat * 2 ^ 7 + d.toNat ∧
    (d.toNat = 0 → exec (.b64d a b c d) s = .next { s with err := .len, ecmd := encode (.b64d a b c d) }) ∧
    (1 ≤ d.toNat → 128 < a.toNat + c.toNat ∨ 128 < b.toNat + d.toNat →
      exec (.b64d a b c d) s = .next { s with err := .range, ecmd := encode (.b64d a b c d) }) ∧
    (1 ≤ d.toNat → a.toNat + c.toNat ≤ 128 → b.toNat + d.toNat ≤ 128 →
      ∃ (out : List Byte) (t : State), exec (.b64d a b c d) s = .next t ∧
        t = { s with buf := t.buf, rlen := t.rlen } ∧
        out = b64Decode ((List.range c.toNat).map fun k => s.buf.read (a.toNat + k)) d.toNat ∧
        out.length ≤ d.toNat ∧ (c.toNat ≤ 1 → out.length = 0) ∧ t.rlen.toNat = out.length ∧
        (∀ j, j < out.length → out[j]? = some (t.buf.read (b.toNat + j))) ∧
        ∀ x, x < b.toNat ∨ b.toNat + out.length ≤ x → t.buf.read x = s.buf.read x)

/-! ## The cipher functions -/

/-- 41_encipher.md rule R80: `F`, with the boxes at their places in the flat view. -/
def Obligations.RoundFunction : Prop :=
  (∀ (sf : Vector Word 1024) (x : Word) (x0 x1 x2 x3 : Fin 256),
    x.toNat = x0.val * 2 ^ 24 + x1.val * 2 ^ 16 + x2.val * 2 ^ 8 + x3.val →
    (roundF sf x).toNat =
      ((((sf[x0.val].toNat + sf[256 + x1.val].toNat) % 2 ^ 32) ^^^ sf[512 + x2.val].toNat) + sf[768 + x3.val].toNat) %
        2 ^ 32) ∧
  roundF sInit 0x01020304 = 0x3CEDFF8C

/-- 41_encipher.md rule R81: `Encipher` by its sixteen rounds, the last swap undone, then the two output subkeys. -/
def Obligations.EncipherRounds : Prop :=
  ∀ (c : CipherState) (lr : Word × Word), ∃ L R : Nat → Word, (L 0, R 0) = lr ∧
    (∀ i (h : i < 16), L (i + 1) = R i ^^^ roundF c.sf (L i ^^^ c.p[i]) ∧ R (i + 1) = L i ^^^ c.p[i]) ∧
    encipher c lr = (R 16 ^^^ c.p[17], L 16 ^^^ c.p[16])

/-- `Encipher` is a bijection on blocks whatever `P` and `S` are (derived in 41_encipher.md rule R81). -/
def Obligations.EncipherIsBijection : Prop := ∀ c : CipherState, Function.Bijective (encipher c)

/-- The form with the swaps unrolled is the same function (derived in 41_encipher.md rule R82). -/
def Obligations.UnrolledEncipherAgrees : Prop :=
  (∀ (c : CipherState) (lr : Word × Word), encipher c lr = encipherUnrolled c lr) ∧
  encipher { p := pInit, sf := sInit } (0, 0) = (0x706D9FCC, 0x1792D23A)

/-- 42_key_schedule.md rule R90: `StreamWord` reads four successive bytes cyclically, the first most significant. -/
def Obligations.StreamWordIsCyclic : Prop :=
  ∀ (bs : List Byte) (pos : Nat), pos < bs.length →
    streamWord bs pos = (cyclicWord (fun j => bs.getD j 0) bs.length pos, (pos + 4) % bs.length)

/-- 42_key_schedule.md rule R91: `KeyMix` XORs the key stream into all eighteen words, from key position 0. -/
def Obligations.KeyMixByIndex : Prop :=
  ∀ (key : List Byte) (p : Vector Word 18), key ≠ [] → ∀ i : Fin 18,
    (keyMix key p)[i] = p[i] ^^^ cyclicWord (fun j => key.getD j 0) key.length (4 * i.val)

/-- Key bytes at index 72 and above are never used, by `KS` and by `EKS`, and a shorter key is reused from its start
(derived in 42_key_schedule.md rule R93). -/
def Obligations.KeyBytesBeyond72Unused : Prop :=
  (∀ (s s' : State) (a a' c c' : Field), s.err = .noError → s'.err = .noError → s.cipher = s'.cipher →
    72 ≤ c.toNat → 72 ≤ c'.toNat → a.toNat + c.toNat ≤ 128 → a'.toNat + c'.toNat ≤ 128 →
    (∀ j, j < 72 → s.buf.read (a.toNat + j) = s'.buf.read (a'.toNat + j)) →
    ((s.phase = .uninit ∧ s.loaded = true) ∨ s.phase = .keysched →
      (s'.phase = .uninit ∧ s'.loaded = true) ∨ s'.phase = .keysched →
      ∃ t t', exec (.ks a c) s = .next t ∧ exec (.ks a' c') s' = .next t' ∧ t.cipher = t'.cipher ∧
        t.phase = .keysched ∧ t'.phase = .keysched) ∧
    (∀ b b' : Field, s.phase = .uninit → s.loaded = true → s'.phase = .uninit → s'.loaded = true →
      b.toNat + 16 ≤ 128 → b'.toNat + 16 ≤ 128 →
      (∀ j, j < 16 → s.buf.read (b.toNat + j) = s'.buf.read (b'.toNat + j)) →
      ∃ t t', exec (.eks a b c) s = .next t ∧ exec (.eks a' b' c') s' = .next t' ∧ t.cipher = t'.cipher ∧
        t.phase = .keysched ∧ t'.phase = .keysched)) ∧
  (∀ (key salt : List Byte) (c : CipherState), key ≠ [] → keySchedule key c = keySchedule (key ++ key) c ∧
    enhancedKeySchedule salt key c = enhancedKeySchedule salt (key ++ key) c)

/-- A salt of sixteen zero bytes makes `EKS` equal to `KS` with the same key (derived in 42_key_schedule.md rule R94). -/
def Obligations.ZeroSaltEksEqualsKs : Prop :=
  ∀ (s : State) (a b c : Field), s.err = .noError → s.phase = .uninit → s.loaded = true →
    1 ≤ c.toNat → a.toNat + c.toNat ≤ 128 → b.toNat + 16 ≤ 128 →
    (∀ j, j < 16 → s.buf.read (b.toNat + j) = 0) →
    ∃ t, exec (.eks a b c) s = .next t ∧ exec (.ks a c) s = .next t ∧ t.phase = .keysched

/-- `ENC` commands on different even offsets commute (derived in 70_reset_and_hazards.md rule R146). -/
def Obligations.EncOnDifferentPairsCommute : Prop :=
  ∀ (s : State) (d e : Field), s.err = .noError → s.phase = .keysched ∨ s.phase = .encipher →
    d.toNat ≤ 4 → e.toNat ≤ 4 → d.toNat % 2 = 0 → e.toNat % 2 = 0 → d ≠ e →
    ∃ t u v, exec (.enc d) s = .next t ∧ exec (.enc e) t = .next v ∧
      exec (.enc e) s = .next u ∧ exec (.enc d) u = .next v

/-- 40_init.md rule R71: word `n` of `P_INIT` followed by `S_INIT` is `floor((π − 3) · 2^(32(n+1))) mod 2^32`. -/
def Obligations.InitialTablesAreDigitsOfPi : Prop :=
  ∀ n, n < 1042 → ((pInit.toList ++ sInit.toList)[n]?).map BitVec.toNat =
    some (⌊(Real.pi - 3) * 2 ^ (32 * (n + 1))⌋₊ % 2 ^ 32)

/-! ## The codec functions -/

/-- 43_base64.md rules R101 and R102: the two directions of the alphabet, and no other byte is valid. -/
def Obligations.AlphabetRoundTrip : Prop :=
  (∀ v : Sym, charSym (symChar v) = some v) ∧
  (∀ (ch : Byte) (v : Sym), charSym ch = some v → symChar v = ch) ∧
  (∀ ch : Byte, charSym ch = none ↔ ¬(ch = 0x2E ∨ ch = 0x2F ∨ (0x30 ≤ ch.toNat ∧ ch.toNat ≤ 0x39) ∨
    (0x41 ≤ ch.toNat ∧ ch.toNat ≤ 0x5A) ∨ (0x61 ≤ ch.toNat ∧ ch.toNat ≤ 0x7A))) ∧
  (List.range 64).map (fun v => (symChar (BitVec.ofNat 6 v)).toNat) =
    [0x2E, 0x2F] ++ (List.range 26).map (0x41 + ·) ++ (List.range 26).map (0x61 + ·) ++ (List.range 10).map (0x30 + ·)

/-- 43_base64.md rule R103: `Encode` gives `ceil(4n/3)` symbols, four for each chunk of three bytes, three for a last chunk of
two and two for a last chunk of one. -/
def Obligations.EncodeByChunks : Prop :=
  ∀ (bs : List Byte) (b : Nat → Byte) (s : Nat → Sym), bs ≠ [] → (∀ k, k < bs.length → bs[k]? = some (b k)) →
    (∀ k, k < (b64Encode bs).length → (b64Encode bs)[k]? = some (s k)) →
    (b64Encode bs).length = (4 * bs.length + 2) / 3 ∧
    (∀ q, 3 * q + 2 < bs.length →
      s (4 * q) = (b (3 * q)).extractLsb' 2 6 ∧
      s (4 * q + 1) = (b (3 * q)).extractLsb' 0 2 ++ (b (3 * q + 1)).extractLsb' 4 4 ∧
      s (4 * q + 2) = (b (3 * q + 1)).extractLsb' 0 4 ++ (b (3 * q + 2)).extractLsb' 6 2 ∧
      s (4 * q + 3) = (b (3 * q + 2)).extractLsb' 0 6) ∧
    (∀ q, bs.length = 3 * q + 1 →
      s (4 * q) = (b (3 * q)).extractLsb' 2 6 ∧ s (4 * q + 1) = (b (3 * q)).extractLsb' 0 2 ++ 0b0000#4) ∧
    (∀ q, bs.length = 3 * q + 2 →
      s (4 * q) = (b (3 * q)).extractLsb' 2 6 ∧
      s (4 * q + 1) = (b (3 * q)).extractLsb' 0 2 ++ (b (3 * q + 1)).extractLsb' 4 4 ∧
      s (4 * q + 2) = (b (3 * q + 1)).extractLsb' 0 4 ++ 0b00#2)

/-- `Encode` is the bit string of its input, padded with zero bits to a multiple of 6 and cut in sixes (derived in
43_base64.md rule R103). -/
def Obligations.EncodeIsCutBitString : Prop :=
  ∀ bs : List Byte, bs ≠ [] → (b64Encode bs).length = (4 * bs.length + 2) / 3 ∧
    ∀ j, j < (4 * bs.length + 2) / 3 → ∀ i, i < 6 →
      ((b64Encode bs)[j]?).map (fun v => v.getMsbD i) =
        some (((bs[(6 * j + i) / 8]?).map fun b => b.getMsbD ((6 * j + i) % 8)).getD false)

/-- The closed form of `Decode`: the first `min(max, full(v))` bytes of the bit string of the longest valid prefix (derived in
43_base64.md rule R107 from rule R106). -/
def Obligations.DecodeClosedForm : Prop :=
  ∀ (cs : List Byte) (max v : Nat), 1 ≤ max → v ≤ cs.length →
    (∀ j, j < v → ∃ ch, cs[j]? = some ch ∧ charSym ch ≠ none) → (∀ ch, cs[v]? = some ch → charSym ch = none) →
    (b64Decode cs max).length =
      min max (3 * (v / 4) + (if v % 4 = 2 then 1 else if v % 4 = 3 then 2 else 0)) ∧
    ∀ j, j < (b64Decode cs max).length → ∀ i, i < 8 →
      ((b64Decode cs max)[j]?).map (fun b => b.getMsbD i) =
        (cs[(8 * j + i) / 6]?).bind fun ch => (charSym ch).map fun v => v.getMsbD ((8 * j + i) % 6)

/-- `B64D` of what `B64E` wrote returns the bytes, and what the characters are never makes `B64D` fail (43_base64.md rule R109,
which derives the round trip). -/
def Obligations.CodecRoundTrip : Prop :=
  (∀ (s : State) (a b c x d : Field), s.err = .noError → s.buf.wf = true → 1 ≤ c.toNat → c.toNat ≤ 95 →
    a.toNat + c.toNat ≤ 128 → b.toNat + (4 * c.toNat + 2) / 3 ≤ 128 → c.toNat ≤ d.toNat → x.toNat + d.toNat ≤ 128 →
    ∃ t u, exec (.b64e a b c) s = .next t ∧ exec (.b64d b x (t.rlen.setWidth 7) d) t = .next u ∧
      u.rlen.toNat = c.toNat ∧ ∀ j, j < c.toNat → u.buf.read (x.toNat + j) = s.buf.read (a.toNat + j)) ∧
  (∀ (s : State) (m : Memory) (a b c d : Field) (t u : State), exec (.b64d a b c d) s = .next t →
    exec (.b64d a b c d) { s with buf := m } = .next u → u.err = t.err ∧ u.ecmd = t.ecmd)

/-! ## The whole machine -/

/-- 10_state.md rule R15: the encoding; the table (a command whose operands are legal and that is not halted raises `E_PHASE`
and changes nothing else where the table has a dash, and else leaves `PHASE` and `LOADED` as the table says); and the phase
moves forward one place at a time but for `RST` and `HardReset`. -/
def Obligations.PhaseTable : Prop :=
  (Phase.uninit.code = 0 ∧ Phase.keysched.code = 1 ∧ Phase.encipher.code = 2 ∧ Phase.done.code = 3) ∧
  (∀ (s : State) (i : Instr), s.err = .noError → i.wellFormed = true →
    let next : Option (Phase × Bool) := match i, s.phase with
      | .init, .uninit => some (.uninit, true)
      | .init, _ => none
      | .eks _ _ _, .uninit => if s.loaded then some (.keysched, true) else none
      | .eks _ _ _, _ => none
      | .ks _ _, .uninit => if s.loaded then some (.keysched, true) else none
      | .ks _ _, .keysched => some (.keysched, s.loaded)
      | .ks _ _, _ => none
      | .ldd _, .done => none
      | .ldd _, p => some (p, s.loaded)
      | .enc _, .keysched => some (.encipher, s.loaded)
      | .enc _, .encipher => some (.encipher, s.loaded)
      | .enc _, _ => none
      | .std _, .encipher => some (.done, s.loaded)
      | .std _, _ => none
      | .b64e _ _ _, p => some (p, s.loaded)
      | .b64d _ _ _ _, p => some (p, s.loaded)
      | .rst, _ => some (.uninit, false)
    match next with
    | none => exec i s = .next { s with err := .phase, ecmd := encode i }
    | some (p, l) => ∃ t, exec i s = .next t ∧ t.err = .noError ∧ t.phase = p ∧ t.loaded = l) ∧
  ∀ (o : HostOp) (s t : State), hostOp o s = .next t → o ≠ .cmd 0xF0000000 → o ≠ .hardReset →
    t.phase.code.toNat = s.phase.code.toNat ∨ t.phase.code.toNat = s.phase.code.toNat + 1

/-- 70_reset_and_hazards.md rule R143: `STATUS` along one computation: 4 after `INIT`, 5 after the first key schedule, 6 after
the first `ENC`, 7 after `STD`, 0 after `RST`. -/
def Obligations.StatusAlongOneComputation : Prop :=
  ∀ (s : State) (schedule : Instr) (d b : Field), s.status = 0 →
    (∃ x y z, schedule = .eks x y z) ∨ (∃ x z, schedule = .ks x z) → schedule.wellFormed = true →
    d.toNat ≤ 4 → b.toNat ≤ 104 →
    ∃ t1 t2 t3 t4 t5, exec .init s = .next t1 ∧ t1.status = 0x00000004 ∧ exec schedule t1 = .next t2 ∧
      t2.status = 0x00000005 ∧ exec (.enc d) t2 = .next t3 ∧ t3.status = 0x00000006 ∧
      exec (.std b) t3 = .next t4 ∧ t4.status = 0x00000007 ∧ exec .rst t4 = .next t5 ∧ t5.status = 0x00000000

/-- The "written by" column of the opening table of 10_state.md (rule R21): an element that a step changed was changed by one
of the operations the table names for it, `ERR` and `ECMD` by `RST` or by a command that fails. The last clause is the
model's choice: the operation is taken from `pending` (log 1), and `pending` and `replies` are otherwise left alone but by
the reads (log 2), by `RST` too (log 8). -/
def Obligations.ElementsWrittenByTheirCommands : Prop :=
  ∀ (s t : State) (o : HostOp) (rest : List HostOp), s.pending = o :: rest → step s = .next t → o ≠ .hardReset →
    (t.cipher ≠ s.cipher → ∃ w i, o = .cmd w ∧ decode w = .ok i ∧
      (i = .init ∨ i = .rst ∨ (∃ a b c, i = .eks a b c) ∨ ∃ a c, i = .ks a c)) ∧
    (t.d ≠ s.d → ∃ w i, o = .cmd w ∧ decode w = .ok i ∧ (i = .rst ∨ (∃ a, i = .ldd a) ∨ ∃ d, i = .enc d)) ∧
    (t.buf ≠ s.buf → (∃ a v, o = .writeBuf a v) ∨ ∃ w i, o = .cmd w ∧ decode w = .ok i ∧
      ((∃ b, i = .std b) ∨ (∃ a b c, i = .b64e a b c) ∨ ∃ a b c d, i = .b64d a b c d)) ∧
    (t.phase ≠ s.phase → ∃ w i, o = .cmd w ∧ decode w = .ok i ∧
      (i = .rst ∨ (∃ a b c, i = .eks a b c) ∨ (∃ a c, i = .ks a c) ∨ (∃ d, i = .enc d) ∨ ∃ b, i = .std b)) ∧
    (t.loaded ≠ s.loaded → ∃ w i, o = .cmd w ∧ decode w = .ok i ∧ (i = .rst ∨ i = .init)) ∧
    (t.rlen ≠ s.rlen → ∃ w i, o = .cmd w ∧ decode w = .ok i ∧
      (i = .rst ∨ (∃ a b c, i = .b64e a b c) ∨ ∃ a b c d, i = .b64d a b c d)) ∧
    (t.err ≠ s.err ∨ t.ecmd ≠ s.ecmd → ∃ w, o = .cmd w ∧
      (w = 0xF0000000 ∨ (s.err = .noError ∧ t.err ≠ .noError))) ∧
    t.pending = rest ∧ ((∀ a, o ≠ .readBuf a) → (∀ n, o ≠ .readCsr n) → t.replies = s.replies)

/-- The state after power-on meets the invariant. -/
def Obligations.ResetMeetsInvariant : Prop := State.reset.Inv

/-- Every step keeps the invariant `State.Inv`: `BUF` canonical, `RLEN` at most 128, `ECMD` the word that raised `ERR`, and
`P`, `S` zero before `INIT` and the initial tables until the first key schedule. -/
def Obligations.StepKeepsInvariant : Prop := ∀ s t : State, s.Inv → step s = .next t → t.Inv

/-- `P`, `S` and `D` reach the host only through `STD` (00_scope.md rule R7): two blocks that differ in nothing else give the
host the same values and the same `BUF` for as long as no `STD` is issued; and a difference in `P` and `S` alone is not
carried out by `STD` itself. -/
def Obligations.HiddenStateReachesHostOnlyThroughStd : Prop :=
  (∀ (n : Nat) (s t : State), SameForHost s t → (∀ w, .cmd w ∈ s.pending → opField w ≠ 6) →
    ∃ s' t', core.run n s = .next s' ∧ core.run n t = .next t' ∧ SameForHost s' t') ∧
  (∀ (s t : State), SameForHost s t → s.d = t.d → ∃ s' t', step s = .next s' ∧ step t = .next t' ∧ SameForHost s' t')

/-- The model's choice (log 8), no rule of the spec: the two resets leave the host's side of the interface as it is, the
operations still pending and the values already read. -/
def Obligations.ResetsKeepTheHostsSide : Prop :=
  ∀ s : State, ∃ t u, exec .rst s = .next t ∧ hostOp .hardReset s = .next u ∧
    t.pending = s.pending ∧ t.replies = s.replies ∧ u.pending = s.pending ∧ u.replies = s.replies
end

