-- ==== Sys2Proof/Laws/Fold.lean ====
section
/-! SUPPORT. The induction principle of the loops `for i in 0..n-1` of the cipher functions, stated once. -/

namespace Sys2Proof.Machine

/-- What holds at the start of a loop and is kept by every turn holds at its end. -/
theorem fold_induction {α : Type} {n : Nat} {f : (i : Nat) → i < n → α → α} {init : α} (P : Nat → α → Prop)
    (start : P 0 init) (turn : ∀ i (hi : i < n) x, P i x → P (i + 1) (f i hi x)) : P n (Nat.fold n f init) := by
  induction n with
  | zero => exact start
  | succ n ih =>
    rw [Nat.fold_succ]
    exact turn n (Nat.lt_succ_self n) _ (ih fun i hi x hx => turn i (Nat.lt_succ_of_lt hi) x hx)

end Sys2Proof.Machine
end

