-- ==== Sys2Proof/Laws/Cipher.lean ====
section
/-! SUPPORT. The key schedules as one sequence of 521 turns, so that no later proof unfolds their loops. -/

namespace Sys2Proof.Machine

/-- The states of a schedule, turn by turn: the first 9 turns write pairs of `P`, the next 512 pairs of `SF`. -/
def turns (turn : (CipherState → Word × Word → CipherState) → Filling → Filling) (start : Filling) : Nat → Filling
  | 0 => start
  | n + 1 =>
    if h : n < 9 then turn (writeP n h) (turns turn start n)
    else if h : n - 9 < 512 then turn (writeS (n - 9) h) (turns turn start n)
    else turns turn start n

theorem turns_succ_of_lt (turn : (CipherState → Word × Word → CipherState) → Filling → Filling) (start : Filling) {n : Nat}
    (h : n < 9) : turns turn start (n + 1) = turn (writeP n h) (turns turn start n) := by
  rw [turns, dif_pos h]

theorem turns_succ_of_ge (turn : (CipherState → Word × Word → CipherState) → Filling → Filling) (start : Filling) {n : Nat}
    (h : n < 512) : turns turn start (n + 10) = turn (writeS n h) (turns turn start (n + 9)) := by
  rw [show n + 10 = n + 9 + 1 from rfl, turns, dif_neg (by omega), dif_pos (by omega)]
  rfl

/-- Both loops of a schedule, one after the other, are its 521 turns. -/
theorem loops_eq_turns (turn : (CipherState → Word × Word → CipherState) → Filling → Filling) (start : Filling) :
    Nat.fold 512 (fun k hk x => turn (writeS k hk) x) (Nat.fold 9 (fun k hk x => turn (writeP k hk) x) start) =
      turns turn start 521 := by
  have first : ∀ n (hn : n ≤ 9),
      Nat.fold n (fun k hk x => turn (writeP k (by omega)) x) start = turns turn start n := by
    intro n hn
    induction n with
    | zero => rfl
    | succ n ih => rw [Nat.fold_succ, ih (by omega), turns_succ_of_lt turn start (by omega)]
  have second : ∀ n (hn : n ≤ 512), Nat.fold n (fun k hk x => turn (writeS k (by omega)) x) (turns turn start 9) =
      turns turn start (n + 9) := by
    intro n hn
    induction n with
    | zero => rw [Nat.fold_zero, Nat.zero_add]
    | succ n ih =>
      rw [Nat.fold_succ, ih (by omega), show n + 1 + 9 = n + 10 by omega, turns_succ_of_ge turn start (by omega)]
  rw [first 9 (Nat.le_refl 9)]
  exact second 512 (Nat.le_refl 512)

/-- The plain schedule is the tables its last turn leaves. -/
theorem keySchedule_eq_turns (key : List Byte) (c : CipherState) :
    keySchedule key c = (turns fillPlain (startFilling key c) 521).cipher := by
  rw [← loops_eq_turns]
  rfl

/-- The enhanced schedule is the tables its last turn leaves. -/
theorem enhancedKeySchedule_eq_turns (salt key : List Byte) (c : CipherState) :
    enhancedKeySchedule salt key c = (turns (fillSalted salt) (startFilling key c) 521).cipher := by
  rw [← loops_eq_turns]
  rfl

end Sys2Proof.Machine
end

