-- ==== Sys2Proof/Laws/Codec.lean ====
section
/-! SUPPORT. The bits of the pieces from which the codec puts symbols and bytes together, stated at the width of the result. -/

namespace Sys2Proof.Machine

/-- A symbol of the last two bits of one byte and the first four of the next. -/
theorem sym_append_two_four (x : BitVec 2) (y : BitVec 4) (k : Nat) :
    BitVec.getLsbD (x ++ y : Sym) k = if k < 4 then y.getLsbD k else x.getLsbD (k - 4) :=
  BitVec.getLsbD_append

/-- A symbol of the last four bits of one byte and the first two of the next. -/
theorem sym_append_four_two (x : BitVec 4) (y : BitVec 2) (k : Nat) :
    BitVec.getLsbD (x ++ y : Sym) k = if k < 2 then y.getLsbD k else x.getLsbD (k - 2) :=
  BitVec.getLsbD_append

/-- The first byte of a group: a whole symbol and two bits of the next. -/
theorem byte_append_six_two (x : Sym) (y : BitVec 2) (k : Nat) :
    BitVec.getLsbD (x ++ y : Byte) k = if k < 2 then y.getLsbD k else x.getLsbD (k - 2) :=
  BitVec.getLsbD_append

/-- The second byte of a group: four bits of one symbol and four of the next. -/
theorem byte_append_four_four (x y : BitVec 4) (k : Nat) :
    BitVec.getLsbD (x ++ y : Byte) k = if k < 4 then y.getLsbD k else x.getLsbD (k - 4) :=
  BitVec.getLsbD_append

/-- The third byte of a group: two bits of one symbol and a whole one. -/
theorem byte_append_two_six (x : BitVec 2) (y : Sym) (k : Nat) :
    BitVec.getLsbD (x ++ y : Byte) k = if k < 6 then y.getLsbD k else x.getLsbD (k - 6) :=
  BitVec.getLsbD_append

end Sys2Proof.Machine
end

