-- ==== Sys2Proof/Laws/Decode.lean ====
section
/-! SUPPORT. The bits of a packed word, and the fields read back from it. -/

namespace Sys2Proof

/-- Bit `k` of a packed word is a bit of the field that stands there. -/
theorem pack_getLsbD (op : BitVec 4) (a b c d : Field) (k : Nat) :
    (pack op a b c d).getLsbD k =
      if k < 7 then d.getLsbD k
      else if k < 14 then c.getLsbD (k - 7)
      else if k < 21 then b.getLsbD (k - 14)
      else if k < 28 then a.getLsbD (k - 21)
      else op.getLsbD (k - 28) := by
  simp only [pack, BitVec.getLsbD_append, Nat.sub_sub]
  split_ifs <;> first | rfl | omega

theorem opField_pack (op : BitVec 4) (a b c d : Field) : opField (pack op a b c d) = op := by
  apply BitVec.eq_of_getLsbD_eq
  intro i h
  simp only [opField, BitVec.getLsbD_extractLsb', pack_getLsbD]
  simp only [show ¬(28 + i < 7) by omega, show ¬(28 + i < 14) by omega, show ¬(28 + i < 21) by omega,
    show ¬(28 + i < 28) by omega, Nat.add_sub_cancel_left, h]
  simp

theorem aField_pack (op : BitVec 4) (a b c d : Field) : aField (pack op a b c d) = a := by
  apply BitVec.eq_of_getLsbD_eq
  intro i h
  simp only [aField, BitVec.getLsbD_extractLsb', pack_getLsbD]
  simp only [show ¬(21 + i < 7) by omega, show ¬(21 + i < 14) by omega, show ¬(21 + i < 21) by omega,
    show 21 + i < 28 by omega, Nat.add_sub_cancel_left, h]
  simp

theorem bField_pack (op : BitVec 4) (a b c d : Field) : bField (pack op a b c d) = b := by
  apply BitVec.eq_of_getLsbD_eq
  intro i h
  simp only [bField, BitVec.getLsbD_extractLsb', pack_getLsbD]
  simp only [show ¬(14 + i < 7) by omega, show ¬(14 + i < 14) by omega, show 14 + i < 21 by omega,
    Nat.add_sub_cancel_left, h]
  simp

theorem cField_pack (op : BitVec 4) (a b c d : Field) : cField (pack op a b c d) = c := by
  apply BitVec.eq_of_getLsbD_eq
  intro i h
  simp only [cField, BitVec.getLsbD_extractLsb', pack_getLsbD]
  simp only [show ¬(7 + i < 7) by omega, show 7 + i < 14 by omega, Nat.add_sub_cancel_left, h]
  simp

theorem dField_pack (op : BitVec 4) (a b c d : Field) : dField (pack op a b c d) = d := by
  apply BitVec.eq_of_getLsbD_eq
  intro i h
  simp only [dField, BitVec.getLsbD_extractLsb', pack_getLsbD]
  simp only [Nat.zero_add, h]
  simp

/-- The five fields of a word make up the word. -/
theorem pack_fields (w : Word) : pack (opField w) (aField w) (bField w) (cField w) (dField w) = w := by
  apply BitVec.eq_of_getLsbD_eq
  intro i h
  simp only [pack_getLsbD, opField, aField, bField, cField, dField, BitVec.getLsbD_extractLsb']
  split_ifs <;> first
    | (simp only [show i < 7 by omega]; simp)
    | (simp only [show i - 7 < 7 by omega, show 7 + (i - 7) = i by omega]; simp)
    | (simp only [show i - 14 < 7 by omega, show 14 + (i - 14) = i by omega]; simp)
    | (simp only [show i - 21 < 7 by omega, show 21 + (i - 21) = i by omega]; simp)
    | (simp only [show i - 28 < 4 by omega, show 28 + (i - 28) = i by omega]; simp)

/-- Two packed words are equal exactly when their fields are. -/
theorem pack_inj {op op' : BitVec 4} {a a' b b' c c' d d' : Field} :
    pack op a b c d = pack op' a' b' c' d' ↔ op = op' ∧ a = a' ∧ b = b' ∧ c = c' ∧ d = d' := by
  constructor
  · intro h
    refine ⟨?_, ?_, ?_, ?_, ?_⟩
    · simpa only [opField_pack] using congrArg opField h
    · simpa only [aField_pack] using congrArg aField h
    · simpa only [bField_pack] using congrArg bField h
    · simpa only [cField_pack] using congrArg cField h
    · simpa only [dField_pack] using congrArg dField h
  · rintro ⟨rfl, rfl, rfl, rfl, rfl⟩
    rfl

/-- Masking a packed word masks its fields. -/
theorem pack_and (op op' : BitVec 4) (a a' b b' c c' d d' : Field) :
    pack op a b c d &&& pack op' a' b' c' d' = pack (op &&& op') (a &&& a') (b &&& b') (c &&& c') (d &&& d') := by
  apply BitVec.eq_of_getLsbD_eq
  intro i _
  simp only [BitVec.getLsbD_and, pack_getLsbD]
  split_ifs <;> rfl

/-- A word all of whose fields a row marks unused are zero is that row's command. -/
theorem requireZero_ok {unused : List Field} {i : Instr} (h : ∀ f ∈ unused, f = 0) : requireZero unused i = .ok i := by
  unfold requireZero
  rw [if_pos]
  simpa using h

/-- A word with a field that is unused and not zero is rejected. -/
theorem requireZero_error {unused : List Field} {i : Instr} (h : ¬∀ f ∈ unused, f = 0) :
    requireZero unused i = .error .field := by
  unfold requireZero
  rw [if_neg]
  simpa using h

end Sys2Proof
end

