-- ==== Sys2Proof/Laws/Memory.lean ====
section
/-! SUPPORT. What reading and writing memory do: a read after a write, the canonical form kept by every write, and that equal
reads of canonical memories make equal memories. -/

namespace Sys2Proof.Machine

/-- A canonical memory lists no address below its bound. -/
theorem Memory.read_below {m : Memory} {lo a : Nat} (h : Memory.wfFrom lo m = true) (ha : a < lo) : m.read a = 0 := by
  induction m generalizing lo with
  | nil => rfl
  | cons cell rest ih =>
    obtain ⟨b, u⟩ := cell
    simp only [Memory.wfFrom, Bool.and_eq_true, decide_eq_true_eq] at h
    have hab : a ≠ b := by omega
    simp only [Memory.read, if_neg hab]
    exact ih h.2 (by omega)

/-- Lowering the bound keeps the form. -/
theorem Memory.wfFrom_mono {m : Memory} {lo lo' : Nat} (h : Memory.wfFrom lo m = true) (hl : lo' ≤ lo) :
    Memory.wfFrom lo' m = true := by
  cases m with
  | nil => rfl
  | cons cell rest =>
    simp only [Memory.wfFrom, Bool.and_eq_true, decide_eq_true_eq] at h ⊢
    exact ⟨⟨⟨by omega, h.1.1.2⟩, h.1.2⟩, h.2⟩

/-- A byte read after a write: the written byte at its address, the old byte elsewhere. -/
theorem Memory.read_write {m : Memory} {lo : Nat} (h : Memory.wfFrom lo m = true) (a x : Nat) (v : Byte) :
    (m.write a v).read x = if x = a then v else m.read x := by
  induction m generalizing lo with
  | nil =>
    unfold Memory.write
    split <;> simp_all [Memory.read]
  | cons cell rest ih =>
    obtain ⟨b, u⟩ := cell
    simp only [Memory.wfFrom, Bool.and_eq_true, decide_eq_true_eq] at h
    have rest_below : ∀ y, y ≤ b → Memory.read rest y = 0 := fun y hy => Memory.read_below h.2 (by omega)
    have ih' := ih h.2
    unfold Memory.write
    split
    · next hab =>
      split
      · next hv =>
        by_cases hx : x = a
        · subst hx
          simp [Memory.read, show x ≠ b by omega, rest_below x (by omega), hv]
        · simp [hx]
      · simp only [Memory.read]
    · split
      · next hab =>
        subst hab
        split
        · next hv =>
          by_cases hx : x = a
          · simp [hx, hv, rest_below a (by omega)]
          · simp [Memory.read, hx]
        · simp only [Memory.read]
          split <;> rfl
      · next hab =>
        simp only [Memory.read, ih']
        by_cases hx : x = a
        · simp [hx, hab]
        · simp [hx]

/-- A write inside `BUF` keeps the form. -/
theorem Memory.wfFrom_write {m : Memory} {lo a : Nat} {v : Byte} (h : Memory.wfFrom lo m = true) (hl : lo ≤ a)
    (ha : a < Config.bufSize) : Memory.wfFrom lo (m.write a v) = true := by
  induction m generalizing lo with
  | nil =>
    unfold Memory.write
    split <;> simp_all [Memory.wfFrom]
  | cons cell rest ih =>
    obtain ⟨b, u⟩ := cell
    have h' := h
    simp only [Memory.wfFrom, Bool.and_eq_true, decide_eq_true_eq] at h'
    unfold Memory.write
    split
    · split
      · exact h
      · next hv =>
        simp only [Memory.wfFrom, Bool.and_eq_true, decide_eq_true_eq]
        exact ⟨⟨⟨hl, ha⟩, hv⟩, ⟨⟨by omega, h'.1.1.2⟩, h'.1.2⟩, h'.2⟩
    · split
      · next hab =>
        split
        · exact Memory.wfFrom_mono h'.2 (by omega)
        · next hv =>
          simp only [Memory.wfFrom, Bool.and_eq_true, decide_eq_true_eq]
          exact ⟨⟨⟨hl, ha⟩, hv⟩, hab ▸ h'.2⟩
      · simp only [Memory.wfFrom, Bool.and_eq_true, decide_eq_true_eq]
        exact ⟨h'.1, ih h'.2 (by omega)⟩

theorem Memory.wf_write {m : Memory} {a : Nat} {v : Byte} (h : m.wf = true) (ha : a < Config.bufSize) :
    (m.write a v).wf = true := Memory.wfFrom_write h (Nat.zero_le a) ha

/-- Writing a run of bytes inside `BUF` keeps the form. -/
theorem Memory.wf_writeBytes {m : Memory} {a : Nat} {bs : List Byte} (h : m.wf = true)
    (ha : a + bs.length ≤ Config.bufSize) : (m.writeBytes a bs).wf = true := by
  induction bs generalizing m a with
  | nil => exact h
  | cons b bs ih =>
    simp only [List.length_cons] at ha
    exact ih (Memory.wf_write h (by omega)) (by omega)

/-- A byte read after a run of bytes was written. -/
theorem Memory.read_writeBytes {m : Memory} {a : Nat} {bs : List Byte} (h : m.wf = true)
    (ha : a + bs.length ≤ Config.bufSize) (x : Nat) :
    (m.writeBytes a bs).read x = if a ≤ x ∧ x < a + bs.length then bs.getD (x - a) 0 else m.read x := by
  induction bs generalizing m a with
  | nil =>
    have : ¬(a ≤ x ∧ x < a) := by omega
    simp [Memory.writeBytes, this]
  | cons b bs ih =>
    simp only [List.length_cons] at ha ⊢
    simp only [Memory.writeBytes]
    rw [ih (Memory.wf_write h (by omega)) (by omega), Memory.read_write h]
    by_cases hx : x = a
    · subst hx
      have h1 : ¬(x + 1 ≤ x ∧ x < x + 1 + bs.length) := by omega
      have h2 : x ≤ x ∧ x < x + (bs.length + 1) := by omega
      rw [if_neg h1, if_pos h2]
      simp
    · by_cases h1 : a + 1 ≤ x ∧ x < a + 1 + bs.length
      · have h2 : a ≤ x ∧ x < a + (bs.length + 1) := by omega
        rw [if_pos h1, if_pos h2]
        obtain ⟨k, rfl⟩ : ∃ k, x = a + 1 + k := ⟨x - (a + 1), by omega⟩
        simp [show a + 1 + k - a = k + 1 by omega]
      · have h2 : ¬(a ≤ x ∧ x < a + (bs.length + 1)) := by omega
        rw [if_neg h1, if_neg h2, if_neg hx]

/-- Canonical memories that read alike everywhere are equal. -/
theorem Memory.eq_of_read {m n : Memory} {lo : Nat} (hm : Memory.wfFrom lo m = true) (hn : Memory.wfFrom lo n = true)
    (h : ∀ a, m.read a = n.read a) : m = n := by
  induction m generalizing n lo with
  | nil =>
    cases n with
    | nil => rfl
    | cons cell rest =>
      obtain ⟨b, u⟩ := cell
      simp only [Memory.wfFrom, Bool.and_eq_true, decide_eq_true_eq] at hn
      have hb := h b
      simp only [Memory.read] at hb
      exact absurd hb.symm hn.1.2
  | cons cell rest ih =>
    obtain ⟨b, u⟩ := cell
    simp only [Memory.wfFrom, Bool.and_eq_true, decide_eq_true_eq] at hm
    cases n with
    | nil =>
      have hb := h b
      simp only [Memory.read] at hb
      exact absurd hb hm.1.2
    | cons cell' rest' =>
      obtain ⟨b', u'⟩ := cell'
      simp only [Memory.wfFrom, Bool.and_eq_true, decide_eq_true_eq] at hn
      have same : b = b' := by
        rcases Nat.lt_trichotomy b b' with hlt | heq | hgt
        · have hb := h b
          simp only [Memory.read, if_neg (show b ≠ b' by omega)] at hb
          rw [Memory.read_below hn.2 (by omega)] at hb
          exact absurd hb hm.1.2
        · exact heq
        · have hb := h b'
          simp only [Memory.read, if_neg (show b' ≠ b by omega)] at hb
          rw [Memory.read_below hm.2 (by omega)] at hb
          exact absurd hb.symm hn.1.2
      subst same
      have hu : u = u' := by simpa [Memory.read] using h b
      have hrest : ∀ a, Memory.read rest a = Memory.read rest' a := by
        intro a
        by_cases hab : a = b
        · rw [hab, Memory.read_below hm.2 (by omega), Memory.read_below hn.2 (by omega)]
        · simpa [Memory.read, hab] using h a
      rw [hu, ih hm.2 hn.2 hrest]

@[simp] theorem Memory.length_readBytes (m : Memory) (a n : Nat) : (m.readBytes a n).length = n := by
  simp [Memory.readBytes]

/-- The `k`-th byte of a region. -/
theorem Memory.getElem_readBytes (m : Memory) (a n k : Nat) (h : k < (m.readBytes a n).length) :
    (m.readBytes a n)[k] = m.read (a + k) := by
  simp [Memory.readBytes]

theorem Memory.getD_readBytes (m : Memory) {a n k : Nat} (h : k < n) : (m.readBytes a n).getD k 0 = m.read (a + k) := by
  simp [Memory.readBytes, List.getD_eq_getElem?_getD, h]

end Sys2Proof.Machine
end

