-- ==== Sys2Proof/Laws/State.lean ====
section
/-! SUPPORT. One lemma per element per writer: what each writer of Machine/Ops.lean leaves in each element of the state. -/

namespace Sys2Proof.Machine

section setCipher

variable (s : State) (c : CipherState)

@[simp] theorem State.setCipher_cipher : (s.setCipher c).cipher = c := rfl
@[simp] theorem State.setCipher_d : (s.setCipher c).d = s.d := rfl
@[simp] theorem State.setCipher_buf : (s.setCipher c).buf = s.buf := rfl
@[simp] theorem State.setCipher_phase : (s.setCipher c).phase = s.phase := rfl
@[simp] theorem State.setCipher_loaded : (s.setCipher c).loaded = s.loaded := rfl
@[simp] theorem State.setCipher_err : (s.setCipher c).err = s.err := rfl
@[simp] theorem State.setCipher_rlen : (s.setCipher c).rlen = s.rlen := rfl
@[simp] theorem State.setCipher_ecmd : (s.setCipher c).ecmd = s.ecmd := rfl
@[simp] theorem State.setCipher_pending : (s.setCipher c).pending = s.pending := rfl
@[simp] theorem State.setCipher_replies : (s.setCipher c).replies = s.replies := rfl

end setCipher

section setD

variable (s : State) (v : Vector Word 6)

@[simp] theorem State.setD_cipher : (s.setD v).cipher = s.cipher := rfl
@[simp] theorem State.setD_d : (s.setD v).d = v := rfl
@[simp] theorem State.setD_buf : (s.setD v).buf = s.buf := rfl
@[simp] theorem State.setD_phase : (s.setD v).phase = s.phase := rfl
@[simp] theorem State.setD_loaded : (s.setD v).loaded = s.loaded := rfl
@[simp] theorem State.setD_err : (s.setD v).err = s.err := rfl
@[simp] theorem State.setD_rlen : (s.setD v).rlen = s.rlen := rfl
@[simp] theorem State.setD_ecmd : (s.setD v).ecmd = s.ecmd := rfl
@[simp] theorem State.setD_pending : (s.setD v).pending = s.pending := rfl
@[simp] theorem State.setD_replies : (s.setD v).replies = s.replies := rfl

end setD

section setBuf

variable (s : State) (m : Memory)

@[simp] theorem State.setBuf_cipher : (s.setBuf m).cipher = s.cipher := rfl
@[simp] theorem State.setBuf_d : (s.setBuf m).d = s.d := rfl
@[simp] theorem State.setBuf_buf : (s.setBuf m).buf = m := rfl
@[simp] theorem State.setBuf_phase : (s.setBuf m).phase = s.phase := rfl
@[simp] theorem State.setBuf_loaded : (s.setBuf m).loaded = s.loaded := rfl
@[simp] theorem State.setBuf_err : (s.setBuf m).err = s.err := rfl
@[simp] theorem State.setBuf_rlen : (s.setBuf m).rlen = s.rlen := rfl
@[simp] theorem State.setBuf_ecmd : (s.setBuf m).ecmd = s.ecmd := rfl
@[simp] theorem State.setBuf_pending : (s.setBuf m).pending = s.pending := rfl
@[simp] theorem State.setBuf_replies : (s.setBuf m).replies = s.replies := rfl

end setBuf

section setPhase

variable (s : State) (p : Phase)

@[simp] theorem State.setPhase_cipher : (s.setPhase p).cipher = s.cipher := rfl
@[simp] theorem State.setPhase_d : (s.setPhase p).d = s.d := rfl
@[simp] theorem State.setPhase_buf : (s.setPhase p).buf = s.buf := rfl
@[simp] theorem State.setPhase_phase : (s.setPhase p).phase = p := rfl
@[simp] theorem State.setPhase_loaded : (s.setPhase p).loaded = s.loaded := rfl
@[simp] theorem State.setPhase_err : (s.setPhase p).err = s.err := rfl
@[simp] theorem State.setPhase_rlen : (s.setPhase p).rlen = s.rlen := rfl
@[simp] theorem State.setPhase_ecmd : (s.setPhase p).ecmd = s.ecmd := rfl
@[simp] theorem State.setPhase_pending : (s.setPhase p).pending = s.pending := rfl
@[simp] theorem State.setPhase_replies : (s.setPhase p).replies = s.replies := rfl

end setPhase

section setLoaded

variable (s : State) (b : Bool)

@[simp] theorem State.setLoaded_cipher : (s.setLoaded b).cipher = s.cipher := rfl
@[simp] theorem State.setLoaded_d : (s.setLoaded b).d = s.d := rfl
@[simp] theorem State.setLoaded_buf : (s.setLoaded b).buf = s.buf := rfl
@[simp] theorem State.setLoaded_phase : (s.setLoaded b).phase = s.phase := rfl
@[simp] theorem State.setLoaded_loaded : (s.setLoaded b).loaded = b := rfl
@[simp] theorem State.setLoaded_err : (s.setLoaded b).err = s.err := rfl
@[simp] theorem State.setLoaded_rlen : (s.setLoaded b).rlen = s.rlen := rfl
@[simp] theorem State.setLoaded_ecmd : (s.setLoaded b).ecmd = s.ecmd := rfl
@[simp] theorem State.setLoaded_pending : (s.setLoaded b).pending = s.pending := rfl
@[simp] theorem State.setLoaded_replies : (s.setLoaded b).replies = s.replies := rfl

end setLoaded

section setRlen

variable (s : State) (n : Nat)

@[simp] theorem State.setRlen_cipher : (s.setRlen n).cipher = s.cipher := rfl
@[simp] theorem State.setRlen_d : (s.setRlen n).d = s.d := rfl
@[simp] theorem State.setRlen_buf : (s.setRlen n).buf = s.buf := rfl
@[simp] theorem State.setRlen_phase : (s.setRlen n).phase = s.phase := rfl
@[simp] theorem State.setRlen_loaded : (s.setRlen n).loaded = s.loaded := rfl
@[simp] theorem State.setRlen_err : (s.setRlen n).err = s.err := rfl
@[simp] theorem State.setRlen_rlen : (s.setRlen n).rlen = BitVec.ofNat 8 n := rfl
@[simp] theorem State.setRlen_ecmd : (s.setRlen n).ecmd = s.ecmd := rfl
@[simp] theorem State.setRlen_pending : (s.setRlen n).pending = s.pending := rfl
@[simp] theorem State.setRlen_replies : (s.setRlen n).replies = s.replies := rfl

end setRlen

section setPending

variable (s : State) (q : List HostOp)

@[simp] theorem State.setPending_cipher : (s.setPending q).cipher = s.cipher := rfl
@[simp] theorem State.setPending_d : (s.setPending q).d = s.d := rfl
@[simp] theorem State.setPending_buf : (s.setPending q).buf = s.buf := rfl
@[simp] theorem State.setPending_phase : (s.setPending q).phase = s.phase := rfl
@[simp] theorem State.setPending_loaded : (s.setPending q).loaded = s.loaded := rfl
@[simp] theorem State.setPending_err : (s.setPending q).err = s.err := rfl
@[simp] theorem State.setPending_rlen : (s.setPending q).rlen = s.rlen := rfl
@[simp] theorem State.setPending_ecmd : (s.setPending q).ecmd = s.ecmd := rfl
@[simp] theorem State.setPending_pending : (s.setPending q).pending = q := rfl
@[simp] theorem State.setPending_replies : (s.setPending q).replies = s.replies := rfl

end setPending

section reply

variable (s : State) (r : Reply)

@[simp] theorem State.reply_cipher : (s.reply r).cipher = s.cipher := rfl
@[simp] theorem State.reply_d : (s.reply r).d = s.d := rfl
@[simp] theorem State.reply_buf : (s.reply r).buf = s.buf := rfl
@[simp] theorem State.reply_phase : (s.reply r).phase = s.phase := rfl
@[simp] theorem State.reply_loaded : (s.reply r).loaded = s.loaded := rfl
@[simp] theorem State.reply_err : (s.reply r).err = s.err := rfl
@[simp] theorem State.reply_rlen : (s.reply r).rlen = s.rlen := rfl
@[simp] theorem State.reply_ecmd : (s.reply r).ecmd = s.ecmd := rfl
@[simp] theorem State.reply_pending : (s.reply r).pending = s.pending := rfl
@[simp] theorem State.reply_replies : (s.reply r).replies = s.replies ++ [r] := rfl

end reply

section raise

variable (s : State) (e : Err) (w : Word)

@[simp] theorem State.raise_cipher : (s.raise e w).cipher = s.cipher := rfl
@[simp] theorem State.raise_d : (s.raise e w).d = s.d := rfl
@[simp] theorem State.raise_buf : (s.raise e w).buf = s.buf := rfl
@[simp] theorem State.raise_phase : (s.raise e w).phase = s.phase := rfl
@[simp] theorem State.raise_loaded : (s.raise e w).loaded = s.loaded := rfl
@[simp] theorem State.raise_err : (s.raise e w).err = e := rfl
@[simp] theorem State.raise_rlen : (s.raise e w).rlen = s.rlen := rfl
@[simp] theorem State.raise_ecmd : (s.raise e w).ecmd = w := rfl
@[simp] theorem State.raise_pending : (s.raise e w).pending = s.pending := rfl
@[simp] theorem State.raise_replies : (s.raise e w).replies = s.replies := rfl

end raise

section hardReset

variable (s : State)

@[simp] theorem State.hardReset_cipher : (s.hardReset).cipher = Block.zero.cipher := rfl
@[simp] theorem State.hardReset_d : (s.hardReset).d = Block.zero.d := rfl
@[simp] theorem State.hardReset_buf : (s.hardReset).buf = Block.zero.buf := rfl
@[simp] theorem State.hardReset_phase : (s.hardReset).phase = Block.zero.phase := rfl
@[simp] theorem State.hardReset_loaded : (s.hardReset).loaded = Block.zero.loaded := rfl
@[simp] theorem State.hardReset_err : (s.hardReset).err = Block.zero.err := rfl
@[simp] theorem State.hardReset_rlen : (s.hardReset).rlen = Block.zero.rlen := rfl
@[simp] theorem State.hardReset_ecmd : (s.hardReset).ecmd = Block.zero.ecmd := rfl
@[simp] theorem State.hardReset_pending : (s.hardReset).pending = s.pending := rfl
@[simp] theorem State.hardReset_replies : (s.hardReset).replies = s.replies := rfl

end hardReset

section softReset

variable (s : State)

@[simp] theorem State.softReset_cipher : (s.softReset).cipher = Block.zero.cipher := rfl
@[simp] theorem State.softReset_d : (s.softReset).d = Block.zero.d := rfl
@[simp] theorem State.softReset_buf : (s.softReset).buf = s.buf := rfl
@[simp] theorem State.softReset_phase : (s.softReset).phase = Block.zero.phase := rfl
@[simp] theorem State.softReset_loaded : (s.softReset).loaded = Block.zero.loaded := rfl
@[simp] theorem State.softReset_err : (s.softReset).err = Block.zero.err := rfl
@[simp] theorem State.softReset_rlen : (s.softReset).rlen = Block.zero.rlen := rfl
@[simp] theorem State.softReset_ecmd : (s.softReset).ecmd = Block.zero.ecmd := rfl
@[simp] theorem State.softReset_pending : (s.softReset).pending = s.pending := rfl
@[simp] theorem State.softReset_replies : (s.softReset).replies = s.replies := rfl

end softReset

/-- Two states with the same elements are the same state. -/
theorem State.eq_of_elements {s t : State} (hc : s.cipher = t.cipher) (hd : s.d = t.d) (hb : s.buf = t.buf)
    (hp : s.phase = t.phase) (hl : s.loaded = t.loaded) (he : s.err = t.err) (hr : s.rlen = t.rlen)
    (hw : s.ecmd = t.ecmd) (hq : s.pending = t.pending) (hy : s.replies = t.replies) : s = t := by
  obtain ⟨⟨_, _, _, _, _, _, _, _⟩, _, _⟩ := s
  obtain ⟨⟨_, _, _, _, _, _, _, _⟩, _, _⟩ := t
  simp_all

@[simp] theorem State.reset_block : State.reset.toBlock = Block.zero := rfl
@[simp] theorem State.reset_pending : State.reset.pending = [] := rfl
@[simp] theorem State.reset_replies : State.reset.replies = [] := rfl

end Sys2Proof.Machine
end

