-- ==== Sys2Proof/Laws/Ops.lean ====
section
/-! SUPPORT. Everything the shared operations can do, said once: how a command ends, what each meaning is as a command, and
what a step is for each host operation. -/

namespace Sys2Proof.Machine

@[simp] theorem State.halted_eq_false {s : State} : s.halted = false ↔ s.err = .noError := by
  simp [State.halted]

@[simp] theorem State.halted_eq_true {s : State} : s.halted = true ↔ s.err ≠ .noError := by
  simp [State.halted]

/-- A command of a block that is not halted: its effect where it raises no error, else the error it raises. -/
theorem command_running {s : State} (h : s.err = .noError) (w : Word) (e : Err) (f : State → State) :
    command w e f s = .next (if e = .noError then f s else s.raise e w) := by
  unfold command
  rw [if_neg (by simp [h])]
  split <;> rfl

/-- A command of a halted block is ignored. -/
theorem command_halted {s : State} (h : s.err ≠ .noError) (w : Word) (e : Err) (f : State → State) :
    command w e f s = .next s := by
  unfold command
  rw [if_pos (by simpa using h)]

/-- How a command can end: ignored, failed, or executed. -/
theorem command_cases {s t : State} {w : Word} {e : Err} {f : State → State} (h : command w e f s = .next t) :
    (s.err ≠ .noError ∧ t = s) ∨ (s.err = .noError ∧ e ≠ .noError ∧ t = s.raise e w) ∨
      (s.err = .noError ∧ e = .noError ∧ t = f s) := by
  by_cases hs : s.err = .noError
  · rw [command_running hs] at h
    injection h with h
    by_cases he : e = .noError
    · exact .inr (.inr ⟨hs, he, by simpa [he] using h.symm⟩)
    · exact .inr (.inl ⟨hs, he, by simpa [he] using h.symm⟩)
  · rw [command_halted hs] at h
    injection h with h
    exact .inl ⟨hs, h.symm⟩

/-- The first error of three checks, said by cases. -/
theorem firstError_eq (p l r : Bool) :
    firstError p l r = if p = true then if l = true then if r = true then .noError else .range else .len else .phase := by
  cases p <;> cases l <;> cases r <;> rfl

/-- No error exactly when all three checks pass. -/
@[simp] theorem firstError_eq_noError {p l r : Bool} : firstError p l r = .noError ↔ p = true ∧ l = true ∧ r = true := by
  cases p <;> cases l <;> cases r <;> simp [firstError]

/-! ## The checks, in plain numbers -/

@[simp] theorem regionOk_eq_true {x : Field} {n : Nat} : regionOk x n = true ↔ x.toNat + n ≤ 128 := by
  simp [regionOk]

@[simp] theorem regionOk_eq_false {x : Field} {n : Nat} : regionOk x n = false ↔ 128 < x.toNat + n := by
  simp [regionOk]

@[simp] theorem lenOk_eq_true {n : Field} : lenOk n = true ↔ 1 ≤ n.toNat := by
  simp [lenOk, ← BitVec.toNat_inj, Nat.one_le_iff_ne_zero]

@[simp] theorem lenOk_eq_false {n : Field} : lenOk n = false ↔ n.toNat = 0 := by
  simp [lenOk, ← BitVec.toNat_inj]

@[simp] theorem offsetOk_eq_true {d : Field} : offsetOk d = true ↔ d.toNat ≤ 4 := by
  simp [offsetOk]

@[simp] theorem offsetOk_eq_false {d : Field} : offsetOk d = false ↔ 4 < d.toNat := by
  simp [offsetOk]

@[simp] theorem encodedLen_eq (n : Nat) : encodedLen n = (4 * n + 2) / 3 := rfl

@[simp] theorem phaseInit_eq_true {b : Block} : b.phaseInit = true ↔ b.phase = .uninit := by
  simp [Block.phaseInit]

@[simp] theorem phaseEks_eq_true {b : Block} : b.phaseEks = true ↔ b.phase = .uninit ∧ b.loaded = true := by
  simp [Block.phaseEks]

@[simp] theorem phaseKs_eq_true {b : Block} :
    b.phaseKs = true ↔ (b.phase = .uninit ∧ b.loaded = true) ∨ b.phase = .keysched := by
  simp [Block.phaseKs]

@[simp] theorem phaseLdd_eq_true {b : Block} : b.phaseLdd = true ↔ b.phase ≠ .done := by
  simp [Block.phaseLdd]

@[simp] theorem phaseEnc_eq_true {b : Block} : b.phaseEnc = true ↔ b.phase = .keysched ∨ b.phase = .encipher := by
  simp [Block.phaseEnc]

@[simp] theorem phaseStd_eq_true {b : Block} : b.phaseStd = true ↔ b.phase = .encipher := by
  simp [Block.phaseStd]

/-- The check and the effect of every command but `RST`: `exec` of it is that command. -/
def commandParts : Instr → Option ((Block → Err) × (State → State))
  | .init => some (fun b => firstError b.phaseInit true true, initEffect)
  | .eks a b c => some (fun k => firstError k.phaseEks (lenOk c) (regionOk a c.toNat && regionOk b Config.saltLen),
      eksEffect a b c)
  | .ks a c => some (fun k => firstError k.phaseKs (lenOk c) (regionOk a c.toNat), ksEffect a c)
  | .ldd a => some (fun k => firstError k.phaseLdd true (regionOk a Config.dataBytes), lddEffect a)
  | .enc d => some (fun k => firstError k.phaseEnc true (offsetOk d), encEffect d)
  | .std b => some (fun k => firstError k.phaseStd true (regionOk b Config.dataBytes), stdEffect b)
  | .b64e a b c => some (fun _ => firstError true (lenOk c) (regionOk a c.toNat && regionOk b (encodedLen c.toNat)),
      b64eEffect a b c)
  | .b64d a b c d => some (fun _ => firstError true (lenOk d) (regionOk a c.toNat && regionOk b d.toNat),
      b64dEffect a b c d)
  | .rst => none

/-- Every command but `RST` is its check and its effect under the shared operation. -/
theorem exec_eq_command {i : Instr} {check : Block → Err} {effect : State → State}
    (h : commandParts i = some (check, effect)) (s : State) :
    exec i s = command (encode i) (check s.toBlock) effect s := by
  cases i <;> simp only [commandParts, Option.some.injEq, Prod.mk.injEq, reduceCtorEq] at h <;>
    (obtain ⟨rfl, rfl⟩ := h; rfl)

/-- `RST` has no check. -/
theorem exec_rst (s : State) : exec .rst s = .next s.softReset := rfl

/-- `RST` is the only command without a check. -/
theorem commandParts_eq_none {i : Instr} : commandParts i = none ↔ i = .rst := by
  cases i <;> simp [commandParts]

/-- A word that is no command, in a block that is not halted. -/
theorem illegalWord_running {s : State} (h : s.err = .noError) (e : DecodeError) (w : Word) :
    illegalWord e w s = .next (s.raise (DecodeError.toErr e) w) := by
  unfold illegalWord
  rw [if_neg (by simp [h])]

/-- A word that is no command, in a halted block. -/
theorem illegalWord_halted {s : State} (h : s.err ≠ .noError) (e : DecodeError) (w : Word) :
    illegalWord e w s = .next s := by
  unfold illegalWord
  rw [if_pos (by simpa using h)]

/-- `HostCmd` of a word that decodes. -/
theorem hostCmd_ok {w : Word} {i : Instr} (h : decode w = .ok i) (s : State) : hostCmd w s = exec i s := by
  unfold hostCmd
  rw [h]

/-- `HostCmd` of a word that does not decode. -/
theorem hostCmd_error {w : Word} {e : DecodeError} (h : decode w = .error e) (s : State) :
    hostCmd w s = illegalWord e w s := by
  unfold hostCmd
  rw [h]

/-- A step performs the oldest pending operation. -/
theorem step_cons {s : State} {o : HostOp} {rest : List HostOp} (h : s.pending = o :: rest) :
    step s = hostOp o (s.setPending rest) := by
  unfold step
  rw [h]

/-- Everything a command can do: nothing while halted, a reset if it is `RST`, else record its error or take its effect. -/
theorem exec_cases {i : Instr} {s t : State} (h : exec i s = .next t) :
    (i = .rst ∧ t = s.softReset) ∨ (s.err ≠ .noError ∧ t = s) ∨
      ∃ check effect, commandParts i = some (check, effect) ∧ s.err = .noError ∧
        ((check s.toBlock ≠ .noError ∧ t = s.raise (check s.toBlock) (encode i)) ∨
          (check s.toBlock = .noError ∧ t = effect s)) := by
  cases hc : commandParts i with
  | none =>
    obtain rfl := commandParts_eq_none.1 hc
    injection h with h
    exact .inl ⟨rfl, h.symm⟩
  | some parts =>
    rw [exec_eq_command hc] at h
    obtain ⟨hs, ht⟩ | ⟨hs, he, ht⟩ | ⟨hs, he, ht⟩ := command_cases h
    · exact .inr (.inl ⟨hs, ht⟩)
    · exact .inr (.inr ⟨_, _, rfl, hs, .inl ⟨he, ht⟩⟩)
    · exact .inr (.inr ⟨_, _, rfl, hs, .inr ⟨he, ht⟩⟩)

/-- Everything `HostCmd` of a word that is no command can do: nothing while halted, else record its error. -/
theorem illegalWord_cases {e : DecodeError} {w : Word} {s t : State} (h : illegalWord e w s = .next t) :
    (s.err ≠ .noError ∧ t = s) ∨ (s.err = .noError ∧ t = s.raise (DecodeError.toErr e) w) := by
  by_cases hs : s.err = .noError
  · rw [illegalWord_running hs] at h
    injection h with h
    exact .inr ⟨hs, h.symm⟩
  · rw [illegalWord_halted hs] at h
    injection h with h
    exact .inl ⟨hs, h.symm⟩

/-- Everything a step can be: nothing pending, or the oldest pending operation. -/
theorem step_cases {s t : State} (h : step s = .next t) :
    (s.pending = [] ∧ t = s) ∨ ∃ o rest, s.pending = o :: rest ∧ hostOp o (s.setPending rest) = .next t := by
  cases hp : s.pending with
  | nil =>
    unfold step at h
    rw [hp] at h
    injection h with h
    exact .inl ⟨rfl, h.symm⟩
  | cons o rest => exact .inr ⟨o, rest, rfl, step_cons hp ▸ h⟩

/-- A run of no step. -/
theorem run_zero (s : State) : Sys2Proof.core.run 0 s = .next s := rfl

/-- A run whose first step is known. -/
theorem run_succ {s t : State} (h : step s = .next t) (n : Nat) :
    Sys2Proof.core.run (n + 1) s = Sys2Proof.core.run n t := by
  simp only [Host.Core.run, show Sys2Proof.core.step s = .next t from h]

end Sys2Proof.Machine
end

