-- ==== Sys2Proof/Laws/PerInstr.lean ====
section
/-! SUPPORT. Per command: its word passes its row's mask and carries its row's opcode (30_encoding.md rules R52, R53). -/

namespace Sys2Proof.Laws.SelectedByRow

/-- The word of the command is selected by the row of the command, and carries the row's opcode. -/
def Statement (i : Instr) : Prop :=
  encode i &&& rowMask i = rowMatch i ∧ opField (encode i) = opField (rowMatch i)

/-- A packed word whose used fields the mask leaves out is selected by a row with its opcode. -/
theorem of_fields {i : Instr} {op : BitVec 4} {a b c d ma mb mc md : Field} (word : encode i = pack op a b c d)
    (mask : rowMask i = pack 15 ma mb mc md) (row : rowMatch i = pack op 0 0 0 0) (hop : op &&& 15 = op)
    (ha : a &&& ma = 0) (hb : b &&& mb = 0) (hc : c &&& mc = 0) (hd : d &&& md = 0) : Statement i := by
  refine ⟨?_, ?_⟩
  · rw [word, mask, row, pack_and, hop, ha, hb, hc, hd]
  · rw [word, row, opField_pack, opField_pack]

theorem init : Statement .init :=
  of_fields (ma := 127) (mb := 127) (mc := 127) (md := 127) rfl rfl rfl rfl rfl rfl rfl rfl

theorem eks (a b c : Field) : Statement (.eks a b c) :=
  of_fields (ma := 0) (mb := 0) (mc := 0) (md := 127) rfl rfl rfl rfl BitVec.and_zero BitVec.and_zero BitVec.and_zero rfl

theorem ks (a c : Field) : Statement (.ks a c) :=
  of_fields (ma := 0) (mb := 127) (mc := 0) (md := 127) rfl rfl rfl rfl BitVec.and_zero rfl BitVec.and_zero rfl

theorem ldd (a : Field) : Statement (.ldd a) :=
  of_fields (ma := 0) (mb := 127) (mc := 127) (md := 127) rfl rfl rfl rfl BitVec.and_zero rfl rfl rfl

theorem enc (d : Field) : Statement (.enc d) :=
  of_fields (ma := 127) (mb := 127) (mc := 127) (md := 0) rfl rfl rfl rfl rfl rfl rfl BitVec.and_zero

theorem std (b : Field) : Statement (.std b) :=
  of_fields (ma := 127) (mb := 0) (mc := 127) (md := 127) rfl rfl rfl rfl rfl BitVec.and_zero rfl rfl

theorem b64e (a b c : Field) : Statement (.b64e a b c) :=
  of_fields (ma := 0) (mb := 0) (mc := 0) (md := 127) rfl rfl rfl rfl BitVec.and_zero BitVec.and_zero BitVec.and_zero rfl

theorem b64d (a b c d : Field) : Statement (.b64d a b c d) :=
  of_fields (ma := 0) (mb := 0) (mc := 0) (md := 0) rfl rfl rfl rfl BitVec.and_zero BitVec.and_zero BitVec.and_zero
    BitVec.and_zero

theorem rst : Statement .rst :=
  of_fields (ma := 127) (mb := 127) (mc := 127) (md := 127) rfl rfl rfl rfl rfl rfl rfl rfl

end Sys2Proof.Laws.SelectedByRow
end

