-- ==== Sys2Proof/Laws/Pi.lean ====
section
/-! SUPPORT. The arctangent of `1/x` by integer arithmetic, with its error: what the digits of π in the initial tables
(40_init.md rule R71) can be computed from, by Machin's formula. -/

namespace Sys2Proof.Machine

/-- Two neighbouring terms of the arctangent series of `1/x`, scaled by `S` and rounded down. -/
def arctanPair (S x j : Nat) : Nat := S / ((4 * j + 1) * x ^ (4 * j + 1)) - S / ((4 * j + 3) * x ^ (4 * j + 3))

/-- `2^d` pairs of terms from pair `a` on. -/
def arctanSum (S x : Nat) : Nat → Nat → Nat
  | 0, a => arctanPair S x a
  | d + 1, a => arctanSum S x d a + arctanSum S x d (a + 2 ^ d)

/-- The halving sum is the sum over a range of pairs. -/
theorem arctanSum_eq (S x d a : Nat) : arctanSum S x d a = ∑ j ∈ Finset.range (2 ^ d), arctanPair S x (a + j) := by
  induction d generalizing a with
  | zero => simp [arctanSum]
  | succ d ih =>
    rw [arctanSum, ih, ih, pow_succ, mul_two, Finset.sum_range_add]
    simp [Nat.add_assoc]

/-- The sum is the scaled arctangent, up to one for each pair and the tail of the series. -/
theorem arctanSum_bound (S x d : Nat) (hx : 2 ≤ x) :
    |(S : ℝ) * Real.arctan (x : ℝ)⁻¹ - arctanSum S x d 0| ≤ 2 ^ d + 2 * S / (x : ℝ) ^ (4 * 2 ^ d) := by
  have hx0 : (0 : ℝ) < x := by positivity
  have hx2 : (2 : ℝ) ≤ x := by exact_mod_cast hx
  set y : ℝ := (x : ℝ)⁻¹ with hy
  have hy0 : 0 < y := by positivity
  have hy1 : y ≤ 1 / 2 := by rw [hy, inv_eq_one_div]; exact one_div_le_one_div_of_le (by norm_num) hx2
  have hs := Real.hasSum_arctan (x := y) (by rw [Real.norm_eq_abs, abs_of_pos hy0]; linarith)
  have hr : y ^ 2 ≤ 1 / 4 := by nlinarith
  have tail := norm_sub_le_of_geometric_bound_of_hasSum (r := y ^ 2) (C := y) (by linarith) (fun n => by
    rw [Real.norm_eq_abs, abs_div, abs_mul, abs_pow, abs_neg, abs_one, one_pow, one_mul,
      abs_of_pos (by positivity : 0 < y ^ (2 * n + 1)), abs_of_pos (by positivity)]
    rw [← pow_mul, ← pow_succ']
    exact div_le_self (by positivity) (by push_cast; linarith [(Nat.cast_nonneg n : (0:ℝ) ≤ n)])) hs (2 * 2 ^ d)
  rw [Real.norm_eq_abs, abs_sub_comm] at tail
  have split : ∑ n ∈ Finset.range (2 * 2 ^ d), (-1 : ℝ) ^ n * y ^ (2 * n + 1) / ↑(2 * n + 1) =
      ∑ j ∈ Finset.range (2 ^ d), (y ^ (4 * j + 1) / ↑(4 * j + 1) - y ^ (4 * j + 3) / ↑(4 * j + 3)) := by
    induction 2 ^ d with
    | zero => simp
    | succ n ih =>
      rw [Finset.sum_range_succ, ← ih, mul_add, mul_one, Finset.sum_range_succ, Finset.sum_range_succ]
      have e : (-1 : ℝ) ^ (2 * n) = 1 := by rw [pow_mul]; simp
      have e2 : (-1 : ℝ) ^ (2 * n + 1) = -1 := by rw [pow_succ, e]; ring
      rw [e, e2]
      rw [show 2 * (2 * n) + 1 = 4 * n + 1 by ring, show 2 * (2 * n + 1) + 1 = 4 * n + 3 by ring]
      ring
  rw [split] at tail
  have pair : ∀ j, |(S : ℝ) * (y ^ (4 * j + 1) / ↑(4 * j + 1) - y ^ (4 * j + 3) / ↑(4 * j + 3)) -
      arctanPair S x j| ≤ 1 := by
    intro j
    have t : ∀ m : Nat, 0 < m → (S : ℝ) * (y ^ m / m) = (S : ℝ) / ((m * x ^ m : ℕ) : ℝ) := by
      intro m hm; rw [hy, inv_pow]; push_cast; field_simp
    have f : ∀ m : Nat, 0 < m → ((S / m : ℕ) : ℝ) ≤ (S : ℝ) / m ∧ (S : ℝ) / m ≤ (S / m : ℕ) + 1 := by
      intro m hm
      exact ⟨Nat.cast_div_le, by rw [← Nat.floor_div_eq_div (K := ℝ)]; exact (Nat.lt_floor_add_one _).le⟩
    have le : S / ((4 * j + 3) * x ^ (4 * j + 3)) ≤ S / ((4 * j + 1) * x ^ (4 * j + 1)) :=
      Nat.div_le_div_left (Nat.mul_le_mul (by omega) (Nat.pow_le_pow_right (by omega) (by omega))) (by positivity)
    rw [mul_sub, t _ (by omega), t _ (by omega), arctanPair, Nat.cast_sub le]
    have f1 := f ((4 * j + 1) * x ^ (4 * j + 1)) (by positivity)
    have f2 := f ((4 * j + 3) * x ^ (4 * j + 3)) (by positivity)
    rw [abs_le]
    constructor <;> linarith
  have fin : |(S : ℝ) * ∑ j ∈ Finset.range (2 ^ d), (y ^ (4 * j + 1) / ↑(4 * j + 1) -
      y ^ (4 * j + 3) / ↑(4 * j + 3)) - arctanSum S x d 0| ≤ 2 ^ d := by
    rw [arctanSum_eq, Nat.cast_sum, Finset.mul_sum, ← Finset.sum_sub_distrib]
    refine (Finset.abs_sum_le_sum_abs _ _).trans ((Finset.sum_le_card_nsmul _ _ 1 (fun j _ => ?_)).trans ?_)
    · simpa using pair j
    · simp
  have tl : y * (y ^ 2) ^ (2 * 2 ^ d) / (1 - y ^ 2) ≤ 2 * (y ^ (4 * 2 ^ d)) := by
    rw [div_le_iff₀ (by linarith), ← pow_mul, show 2 * (2 * 2 ^ d) = 4 * 2 ^ d by ring]
    have : 0 < y ^ (4 * 2 ^ d) := by positivity
    nlinarith
  have hS : (0 : ℝ) ≤ S := Nat.cast_nonneg _
  have e3 : 2 * (S : ℝ) / (x : ℝ) ^ (4 * 2 ^ d) = S * (2 * y ^ (4 * 2 ^ d)) := by rw [hy, inv_pow]; field_simp
  rw [e3]
  have := mul_le_mul_of_nonneg_left (tail.trans tl) hS
  rw [← abs_of_nonneg hS, ← abs_mul, abs_of_nonneg hS] at this
  rw [abs_le] at *
  constructor <;> nlinarith

end Sys2Proof.Machine
end

