-- ==== Sys2Proof/Tests/Slice0.lean ====
section
/-! SUPPORT. Tests of the model by values the spec gives (95_test_vectors.md unless a comment says otherwise), and for every
statement with hypotheses a concrete state and operands that meet them. Each test is one step or one function. -/

namespace Sys2Proof.Tests

open Sys2Proof.Machine

/-! ## States -/

/-- `UNINIT` with `LOADED = 1` (the tables themselves play no part). -/
def loaded : State := { State.reset with loaded := true }

/-- After `INIT`. -/
def fresh : State := { State.reset with cipher := { p := pInit, sf := sInit }, loaded := true }

/-- `KEYSCHED` with the initial tables: not reached by commands, used for the function vectors of section 3. -/
def keyed : State := { fresh with phase := .keysched }

/-- `ENCIPHER` with the final `D` of the first source vector. -/
def ciphered : State :=
  { fresh with
    phase := .encipher
    d := #v[0x557E94F3, 0x4BF286E8, 0x719A26BE, 0x94AC1E16, 0xD95EF9F8, 0x19DEE092] }

/-- `DONE` with `RLEN = 31`. -/
def finished : State := { ciphered with phase := .done, rlen := 31 }

/-- Halted by `ENC 0` from reset. -/
def halted : State := { State.reset with err := .phase, ecmd := 0x50000000 }

/-- A buffer that holds `bytes` from `a` on and zero elsewhere. -/
def bufAt (a : Nat) (bytes : List Byte) : Memory := Memory.writeBytes [] a bytes

/-- The result of a host operation, where it is a next state. -/
def after (o : HostOp) (s : State) : Option State :=
  match hostOp o s with
  | .next t => some t
  | _ => none

/-! ## Well-formedness: each check refuses -/

theorem test_eks_length_zero : (Instr.eks 0 72 0).wellFormed = false := by decide
theorem test_eks_key_region : (Instr.eks 120 72 9).wellFormed = false := by decide
theorem test_eks_salt_region : (Instr.eks 0 113 1).wellFormed = false := by decide
theorem test_ks_length_zero : (Instr.ks 120 0).wellFormed = false := by decide
theorem test_ks_key_region : (Instr.ks 120 9).wellFormed = false := by decide
theorem test_ldd_region : (Instr.ldd 105).wellFormed = false := by decide
theorem test_enc_offset : (Instr.enc 5).wellFormed = false := by decide
theorem test_std_region : (Instr.std 105).wellFormed = false := by decide
theorem test_b64e_length_zero : (Instr.b64e 0 0 0).wellFormed = false := by decide
theorem test_b64e_source_region : (Instr.b64e 127 0 2).wellFormed = false := by decide
theorem test_b64e_destination_region : (Instr.b64e 0 0 97).wellFormed = false := by decide
theorem test_b64d_limit_zero : (Instr.b64d 0 0 4 0).wellFormed = false := by decide
theorem test_b64d_source_region : (Instr.b64d 127 0 2 1).wellFormed = false := by decide
theorem test_b64d_destination_region : (Instr.b64d 0 120 0 9).wellFormed = false := by decide
theorem test_boundaries_are_well_formed :
    [Instr.init, .eks 0 112 1, .ks 119 9, .ldd 104, .enc 4, .std 104, .b64e 0 96 24, .b64e 0 0 96, .b64d 0 120 0 8,
      .rst].all Instr.wellFormed = true := by decide

/-! ## Decoding: words written out by the table of 30_encoding.md rule R53, op | a | b | c | d -/

theorem test_decode_init : decode (0b0001#4 ++ 0b0000000#7 ++ 0b0000000#7 ++ 0b0000000#7 ++ 0b0000000#7) = .ok .init := by
  rfl
theorem test_decode_eks :
    decode (0b0010#4 ++ 0b0000001#7 ++ 0b1001000#7 ++ 0b1111111#7 ++ 0b0000000#7) = .ok (.eks 1 72 127) := by rfl
theorem test_decode_ks :
    decode (0b0011#4 ++ 0b1110111#7 ++ 0b0000000#7 ++ 0b0001001#7 ++ 0b0000000#7) = .ok (.ks 119 9) := by rfl
theorem test_decode_ldd :
    decode (0b0100#4 ++ 0b1011000#7 ++ 0b0000000#7 ++ 0b0000000#7 ++ 0b0000000#7) = .ok (.ldd 88) := by rfl
theorem test_decode_enc :
    decode (0b0101#4 ++ 0b0000000#7 ++ 0b0000000#7 ++ 0b0000000#7 ++ 0b0000100#7) = .ok (.enc 4) := by rfl
theorem test_decode_std :
    decode (0b0110#4 ++ 0b0000000#7 ++ 0b1011000#7 ++ 0b0000000#7 ++ 0b0000000#7) = .ok (.std 88) := by rfl
theorem test_decode_b64e :
    decode (0b1000#4 ++ 0b0000000#7 ++ 0b0010000#7 ++ 0b0000101#7 ++ 0b0000000#7) = .ok (.b64e 0 16 5) := by rfl
theorem test_decode_b64d :
    decode (0b1001#4 ++ 0b0000000#7 ++ 0b1001000#7 ++ 0b0010110#7 ++ 0b0010000#7) = .ok (.b64d 0 72 22 16) := by rfl
theorem test_decode_rst : decode (0b1111#4 ++ 0b0000000#7 ++ 0b0000000#7 ++ 0b0000000#7 ++ 0b0000000#7) = .ok .rst := by
  rfl
/-- The words of 30_encoding.md rule R57 and of sections 6 and 9. -/
theorem test_encode_words :
    [Instr.ks 0 8, .eks 0 72 1, .enc 4, .std 88, .b64d 0 72 22 16, .ldd 33, .b64e 88 0 23, .std 101].map encode =
      [0x30000400, 0x20120080, 0x50000004, 0x60160000, 0x90120B10, 0x44200000, 0x8B000B80, 0x60194000] := by decide
/-- Words of section 8 that are no command, and a length and an offset out of range that are. -/
theorem test_decode_rejects :
    [0x00000000, 0x70000000, 0xA0000000, 0xE0000000, 0xFFFFFFFF, 0xF0000001, 0x10000001, 0x3F000001].map decode =
      [.error .opcode, .error .opcode, .error .opcode, .error .opcode, .error .field, .error .field, .error .field,
        .error .field] ∧
    decode 0x50000005 = .ok (.enc 5) ∧ decode 0x30000000 = .ok (.ks 0 0) := ⟨rfl, rfl, rfl⟩
theorem test_decode_table_word :
    decodeTableWord 32 0x44200000 = some (.ldd 33) ∧ decodeTableWord 32 0x70000000 = none := by decide
/-- The word the host places is the next one to run. -/
theorem test_fetch_word_runs :
    step ({ keyed with pending := [.readCsr .ecmd] }.withFetchWord 32 0x50000005) =
      .next { keyed with pending := [.readCsr .ecmd], err := .range, ecmd := 0x50000005 } := by rfl

/-! ## The initial tables: the checks of 40_init.md, first, last, exclusive or and sum -/

/-- First word, last word, exclusive or and sum of a table. -/
def digest (l : List Word) : Option Word × Option Word × Word × Word :=
  (l.head?, l.getLast?, l.foldl (· ^^^ ·) 0, l.foldl (· + ·) 0)

theorem test_p_init : digest pInit.toList = (some 0x243F6A88, some 0x8979FB1B, 0xB73AD7EA, 0x8E4D14CC) := by decide +kernel
theorem test_s_init_0 : digest (sInit.toList.take 256) = (some 0xD1310BA6, some 0x6E85076A, 0x4EB4DB7F, 0x4B745115) := by
  decide +kernel
theorem test_s_init_1 :
    digest ((sInit.toList.drop 256).take 256) = (some 0x4B7A70E9, some 0xDB83ADF7, 0xC727E122, 0x72FF37B2) := by
  decide +kernel
theorem test_s_init_2 :
    digest ((sInit.toList.drop 512).take 256) = (some 0xE93D5A68, some 0x406000E0, 0x462A5D01, 0x2AC02B91) := by
  decide +kernel
theorem test_s_init_3 :
    digest (sInit.toList.drop 768) = (some 0x3A39CE37, some 0x3AC372E6, 0x1779E2BC, 0xF43E3A88) := by decide +kernel

/-! ## The functions -/

theorem test_round_function :
    [0x00000000, 0xFFFFFFFF, 0x01020304, 0x80000000].map (roundF sInit) =
      [0x2FCFF51E, 0x452C2867, 0x3CEDFF8C, 0x1D9CE8BC] := by decide +kernel
theorem test_encipher :
    encipher { p := pInit, sf := sInit } (0xFFFFFFFF, 0xFFFFFFFF) = (0xBA66D0C0, 0xEA4FA48C) := by decide +kernel
theorem test_stream_word :
    (streamWord [0x61, 0x62, 0x63] 0, streamWord [0x61, 0x62, 0x63] 1, streamWord [0x61, 0x62, 0x63] 2) =
      ((0x61626361, 1), (0x62636162, 2), (0x63616263, 0)) := by decide
theorem test_key_mix :
    (keyMix [0x61, 0x62, 0x63] pInit).toList.take 3 = [0x455D09E9, 0xE7C069B1, 0x7078E84D] ∧
    (keyMix [0x61, 0x62, 0x63] pInit).toList.drop 16 = [0xF075B4BB, 0xEA189978] := by decide +kernel
theorem test_b64_encode :
    [[0x48], [0x48, 0x65], [0x48, 0x65, 0x6C], [0xFF]].map (fun bs => (b64Encode bs).map symChar) =
      [[0x51, 0x2E], [0x51, 0x45, 0x53], [0x51, 0x45, 0x54, 0x71], [0x39, 0x75]] := by decide
/-- `QETqZE6.` whole and by limit; an invalid character in each place of a group; a lone character. -/
theorem test_b64_decode :
    [b64Decode [0x51, 0x45, 0x54, 0x71, 0x5A, 0x45, 0x36, 0x2E] 6, b64Decode [0x51, 0x45, 0x54, 0x71, 0x5A, 0x45] 3,
      b64Decode [0x24, 0x45, 0x54, 0x71] 16, b64Decode [0x51, 0x24, 0x54, 0x71] 16, b64Decode [0x51, 0x45, 0x24, 0x71] 16,
      b64Decode [0x51, 0x45, 0x54, 0x24, 0x5A] 16, b64Decode [0x51, 0x45, 0x54, 0x71, 0x5A] 16, b64Decode [] 16] =
    [[0x48, 0x65, 0x6C, 0x6C, 0x6F, 0x00], [0x48, 0x65, 0x6C], [], [], [0x48], [0x48, 0x65], [0x48, 0x65, 0x6C], []] := by
  decide

/-! ## The commands -/

theorem test_init :
    (after (.cmd 0x10000000) State.reset).map (fun t => (t.cipher.p[0], t.cipher.sf[1023], t.status)) =
      some (0x243F6A88, 0x3AC372E6, 0x00000004) := by decide +kernel
theorem test_init_in_keysched :
    (after (.cmd 0x10000000) keyed).map (fun t => (t.status, t.ecmd)) = some (0x00000035, 0x10000000) := by decide
/-- Salt and key of the first source vector. -/
theorem test_eks :
    (after (.cmd 0x20120080) { fresh with
        buf := bufAt 72 [0x14, 0x4B, 0x3D, 0x69, 0x1A, 0x7B, 0x4E, 0xCF, 0x39, 0xCF, 0x73, 0x5C, 0x7F, 0xA7, 0xA7, 0x9C] }).map
      (fun t => (t.cipher.p[0], t.status)) = some (0x0BCEAFBF, 0x00000005) := by decide +kernel
theorem test_eks_salt_past_end :
    (after (.cmd 0x201C4080) loaded).map (fun t => (t.status, t.ecmd)) = some (0x00000054, 0x201C4080) := by decide
/-- The one-byte key 00. -/
theorem test_ks :
    (after (.cmd 0x30000080) fresh).map (fun t => (t.cipher.p[0], t.cipher.p[1], t.status)) =
      some (0x706D9FCC, 0x1792D23A, 0x00000005) := by decide +kernel
theorem test_ks_length_before_range :
    (after (.cmd 0x3F000000) loaded).map (fun t => (t.status, t.ecmd)) = some (0x00000044, 0x3F000000) := by decide
theorem test_ldd_unaligned :
    (after (.cmd 0x44200000) { State.reset with
        buf := bufAt 33 [1, 2, 3, 4, 5, 6, 7, 8, 9, 10, 11, 12, 13, 14, 15, 16, 17, 18, 19, 20, 21, 22, 23, 24] }).map
      (fun t => t.d.toList) =
    some [0x01020304, 0x05060708, 0x090A0B0C, 0x0D0E0F10, 0x11121314, 0x15161718] := by decide
theorem test_ldd_past_end :
    (after (.cmd 0x4D200000) State.reset).map (fun t => (t.status, t.ecmd)) = some (0x00000050, 0x4D200000) := by decide
/-- The third line of the `Encipher` table of section 3, at the odd offset 1. -/
theorem test_enc_odd_offset :
    (after (.cmd 0x50000001) { keyed with d := #v[7, 0x01234567, 0x89ABCDEF, 8, 9, 10] }).map
      (fun t => (t.d.toList, t.status)) = some ([7, 0x738E078D, 0x4C8703A6, 8, 9, 10], 0x00000006) := by decide +kernel
theorem test_enc_offset_five :
    (after (.cmd 0x50000005) keyed).map (fun t => (t.status, t.ecmd)) = some (0x00000055, 0x50000005) := by decide
theorem test_std :
    (after (.cmd 0x60160000) ciphered).map (fun t => (t.buf.readBytes 87 26, t.status)) =
      some ([0x00, 0x55, 0x7E, 0x94, 0xF3, 0x4B, 0xF2, 0x86, 0xE8, 0x71, 0x9A, 0x26, 0xBE, 0x94, 0xAC, 0x1E, 0x16, 0xD9, 0x5E,
        0xF9, 0xF8, 0x19, 0xDE, 0xE0, 0x92, 0x00], 0x00000007) := by decide
theorem test_std_in_keysched :
    (after (.cmd 0x60000000) keyed).map (fun t => (t.status, t.ecmd)) = some (0x00000035, 0x60000000) := by decide
/-- `Hello` encoded over itself from address 2: `HeQETqZE6`. -/
theorem test_b64e_overlap :
    (after (.cmd 0x80008280) { State.reset with buf := bufAt 0 [0x48, 0x65, 0x6C, 0x6C, 0x6F] }).map
      (fun t => (t.buf.readBytes 0 10, t.status)) =
    some ([0x48, 0x65, 0x51, 0x45, 0x54, 0x71, 0x5A, 0x45, 0x36, 0x00], 0x00000700) := by decide
theorem test_b64e_longest :
    (after (.cmd 0x80003000) State.reset).map (fun t => (t.status, t.buf.read 127)) = some (0x00008000, 0x2E) := by
  decide +kernel
/-- `QETq` decoded in place: the fourth byte keeps the `q`. -/
theorem test_b64d_in_place :
    (after (.cmd 0x90000203) { State.reset with buf := bufAt 0 [0x51, 0x45, 0x54, 0x71] }).map
      (fun t => (t.buf.readBytes 0 4, t.status)) = some ([0x48, 0x65, 0x6C, 0x71], 0x00000300) := by decide
theorem test_b64d_limit_past_end :
    (after (.cmd 0x901E0009) State.reset).map (fun t => (t.status, t.ecmd)) = some (0x00000050, 0x901E0009) := by decide
/-- 40_init.md rule R72, worked example. -/
theorem test_rst :
    (after (.cmd 0xF0000000) { finished with buf := bufAt 5 [0xAA] }).map
      (fun t => (t.status, t.ecmd, t.d.toList, t.buf.read 5)) = some (0, 0, [0, 0, 0, 0, 0, 0], 0xAA) ∧
    finished.status = 0x00001F07 := by decide
theorem test_rst_word_must_be_exact :
    (after (.cmd 0xF0000001) State.reset).map (fun t => t.status) = some 0x00000020 ∧
    after (.cmd 0xF0000001) halted = some halted := ⟨by decide, rfl⟩

/-! ## Host operations and errors -/

theorem test_halted_ignores_init : after (.cmd 0x10000000) halted = some halted := rfl
/-- 60_exceptions.md rule R126, worked example. -/
theorem test_phase_error_in_done :
    (after (.cmd 0x30000080) finished).map (fun t => (t.status, t.ecmd)) = some (0x00001F37, 0x30000080) := by decide
theorem test_error_order :
    [0x3F000001, 0x3F000000, 0x90000200, 0x80190C00].map (fun w => (after (.cmd w) State.reset).map fun t => t.status) =
      [some 0x00000020, some 0x00000030, some 0x00000040, some 0x00000050] := by decide
theorem test_host_write_keeps_canonical_form :
    (after (.writeBuf 127 0x5A) halted).map (fun t => t.buf) = some [(127, 0x5A)] ∧
    (after (.writeBuf 127 0) { halted with buf := [(127, 0x5A)] }).map (fun t => t.buf) = some [] := by decide
theorem test_host_reads_return :
    (after (.readBuf 3) { finished with buf := [(3, 0x77)] }).map (fun t => t.replies) = some [.byte 0x77] ∧
    (after (.readCsr .status) finished).map (fun t => t.replies) = some [.word 0x00001F07] ∧
    (after (.readCsr .ecmd) halted).map (fun t => t.replies) = some [.word 0x50000000] := by decide
theorem test_hard_reset_clears_buf :
    (after .hardReset { halted with buf := [(3, 0x77)] }).map (fun t => (t.buf, t.status, t.ecmd)) = some ([], 0, 0) := by
  decide

/-! ## Witnesses: a state and operands that meet the hypotheses of each statement, clause by clause -/

/-- `StepRunsDecodedCommand`: a command, the two kinds of word that are none, and such a word while halted. -/
theorem witness_step_runs_decoded_command :
    (∃ s : State, s.pending = .cmd 0x44200000 :: [] ∧ decode 0x44200000 = .ok (.ldd 33)) ∧
    (∃ s : State, s.pending = .cmd 0x70000000 :: [] ∧ decode 0x70000000 = .error .opcode ∧ s.err = .noError) ∧
    (∃ s : State, s.pending = .cmd 0x10000001 :: [] ∧ decode 0x10000001 = .error .field ∧ s.err = .noError) ∧
    (∃ s : State, s.pending = .cmd 0x10000001 :: [] ∧ decode 0x10000001 = .error .field ∧ s.err ≠ .noError) :=
  ⟨⟨{ keyed with pending := [.cmd 0x44200000] }, rfl, rfl⟩, ⟨{ keyed with pending := [.cmd 0x70000000] }, rfl, rfl, rfl⟩,
    ⟨{ keyed with pending := [.cmd 0x10000001] }, rfl, rfl, rfl⟩,
    ⟨{ halted with pending := [.cmd 0x10000001] }, rfl, rfl, by decide⟩⟩

/-- `IdleBlockHoldsItsState`. -/
theorem witness_idle : finished.pending = [] := rfl

/-- `HostBufferAccess`, `StdMeaning`, `B64eMeaning`, `B64dMeaning`: a canonical buffer whose last byte is listed. -/
theorem witness_canonical_buffer : (bufAt 127 [0x5A]).wf = true := by decide

/-- `ReadReturnsLatestWrite`, with one of each operation it allows in between. -/
theorem witness_read_returns_latest_write :
    ∃ (s : State) (between : List HostOp), s.buf.wf = true ∧
      s.pending = .writeBuf 127 0x5A :: (between ++ .readBuf 127 :: [.hardReset]) ∧ between.length = 3 ∧
      ∀ o ∈ between, (∃ x u, o = .writeBuf x u ∧ x ≠ 127) ∨ (∃ x, o = .readBuf x) ∨ ∃ n, o = .readCsr n := by
  refine ⟨{ halted with pending := [.writeBuf 127 0x5A, .writeBuf 126 1, .readBuf 127, .readCsr .status, .readBuf 127,
    .hardReset] }, [.writeBuf 126 1, .readBuf 127, .readCsr .status], rfl, rfl, rfl, ?_⟩
  intro o ho
  simp only [List.mem_cons, List.not_mem_nil, or_false] at ho
  obtain rfl | rfl | rfl := ho
  · exact .inl ⟨126, 1, rfl, by decide⟩
  · exact .inr (.inl ⟨127, rfl⟩)
  · exact .inr (.inr ⟨.status, rfl⟩)

/-- `EcmdHoldsFailingWord`, `StepKeepsInvariant`: states that meet the invariant with nothing loaded, loaded and halted. -/
theorem witness_invariant : fresh.Inv ∧ halted.Inv :=
  ⟨⟨rfl, by decide, .inl ⟨rfl, rfl⟩, fun h => by (cases h), fun _ _ => rfl⟩,
    ⟨rfl, by decide, .inr ⟨by decide, rfl⟩, fun _ => ⟨rfl, rfl⟩, fun h => by cases h⟩⟩

/-- `EcmdHoldsFailingWord`: the register read, a command that fails, a reset of a halted block, a host operation that is
neither a command nor a reset. -/
theorem witness_ecmd :
    (∃ t, hostOp (.readCsr .ecmd) halted = .next t ∧ t.err ≠ .noError) ∧
    (∃ t, hostOp (.cmd 0x70000000) fresh = .next t ∧ fresh.err = .noError ∧ t.err ≠ .noError ∧ t.ecmd ≠ fresh.ecmd) ∧
    (∃ t, hostOp (.cmd 0xF0000000) halted = .next t ∧ t.err = .noError ∧ t.ecmd ≠ halted.ecmd) ∧
    (∃ t, hostOp (.writeBuf 127 1) halted = .next t ∧ (.writeBuf 127 1 : HostOp) ≠ .hardReset) :=
  ⟨⟨_, rfl, by decide⟩, ⟨_, rfl, rfl, by decide, by decide⟩, ⟨_, rfl, rfl, by decide⟩, ⟨_, rfl, by decide⟩⟩

/-- `EncodeOfDecode`, `MaskAndMatchSelectRow`: every operand at its largest value; a used opcode that fails its mask. -/
theorem witness_decode :
    decode 0x9FFFFFFF = .ok (.b64d 127 127 127 127) ∧ decode 0x8FFFFF80 = .ok (.b64e 127 127 127) ∧
    decode 0x2FFFFF80 = .ok (.eks 127 127 127) ∧ decode 0x3FE03F80 = .ok (.ks 127 127) ∧
    decode 0x4FE00000 = .ok (.ldd 127) ∧ decode 0x5000007F = .ok (.enc 127) ∧ decode 0x601FC000 = .ok (.std 127) ∧
    opField 0x10000001 = opField (rowMatch .init) ∧ 0x10000001 &&& rowMask .init ≠ rowMatch .init :=
  ⟨rfl, rfl, rfl, rfl, rfl, rfl, rfl, rfl, by decide⟩

/-- `IllegalWordsRaise`: the smallest and the largest unused opcode, and a used one with an unused field. -/
theorem witness_illegal_words :
    (opField 0x00000000).toNat ∈ [0, 7, 10, 11, 12, 13, 14] ∧ (opField 0xEFFFFFFF).toNat ∈ [0, 7, 10, 11, 12, 13, 14] ∧
    (opField 0x50000080).toNat ∉ [0, 7, 10, 11, 12, 13, 14] ∧ (∀ i, encode i ≠ 0x50000080) ∧ fresh.err = .noError := by
  refine ⟨by decide, by decide, by decide, ?_, rfl⟩
  intro i h
  have hop := congrArg opField h
  have hc := congrArg cField h
  cases i <;> simp only [encode, opField_pack, cField_pack] at hop hc <;>
    first | exact absurd hop (by decide) | exact absurd hc (by decide)

/-- `EveryWordHasOneOutcome`, `ErrorCodeInStatus`, `FailedCommandChangesOnlyErrorRegisters`: each outcome happens. -/
theorem witness_outcomes :
    (halted.err ≠ .noError ∧ (0x10000000 : Word) ≠ 0xF0000000) ∧
    (fresh.err = .noError ∧ errorOf 0x30000000 fresh.toBlock = .len) ∧
    (fresh.err = .noError ∧ errorOf 0x3EE00480 fresh.toBlock = .noError) ∧
    (∃ t, hostCmd 0x30000000 fresh = .next t ∧ t.err ≠ .noError) :=
  ⟨⟨by decide, by decide⟩, ⟨rfl, rfl⟩, ⟨rfl, rfl⟩, ⟨_, rfl, by decide⟩⟩

/-- `HaltedBlockIgnoresCommands`, `OnlyResetsClearErrors`: a halted block, a command, a read, and both resets. -/
theorem witness_halted :
    halted.err ≠ .noError ∧ Instr.init ≠ .rst ∧ (∀ w, (.readBuf 127 : HostOp) ≠ .cmd w) ∧
    (.readBuf 127 : HostOp) ≠ .hardReset ∧
    (∃ u, hostOp (.readBuf 127) { halted with err := .noError } = .next u) ∧
    ((.cmd 0xF0000000 : HostOp) = .cmd 0xF0000000 ∨ (.cmd 0xF0000000 : HostOp) = .hardReset) :=
  ⟨by decide, by decide, fun _ h => by (cases h), by decide, ⟨_, rfl⟩, .inl rfl⟩

/-- `RstMeaning`: the nearest words that are not `RST`, running and halted. -/
theorem witness_rst :
    (opField 0xF0000001).toNat = 15 ∧ (0xF0000001 : Word) ≠ 0xF0000000 ∧ fresh.err = .noError ∧ halted.err ≠ .noError :=
  ⟨by decide, by decide, rfl, by decide⟩

/-- `InitMeaning`: `UNINIT`, another phase, and a word of the opcode that is not `INIT`. -/
theorem witness_init :
    fresh.err = .noError ∧ fresh.phase = .uninit ∧ keyed.err = .noError ∧ keyed.phase ≠ .uninit ∧
    (opField 0x1FFFFFFF).toNat = 1 ∧ (0x1FFFFFFF : Word) ≠ 0x10000000 :=
  ⟨rfl, rfl, rfl, by decide, by decide, by decide⟩

/-- `KsMeaning`: the largest region, one byte more, length 0, and a phase that refuses; an unused field. -/
theorem witness_ks :
    (fresh.err = .noError ∧ fresh.phase = .uninit ∧ fresh.loaded = true) ∧ (keyed.err = .noError ∧ keyed.phase = .keysched) ∧
    (1 ≤ (9 : Field).toNat ∧ (119 : Field).toNat + (9 : Field).toNat ≤ 128) ∧
    128 < (120 : Field).toNat + (9 : Field).toNat ∧ (0 : Field).toNat = 0 ∧
    ¬((State.reset.phase = .uninit ∧ State.reset.loaded = true) ∨ State.reset.phase = .keysched) ∧
    (opField 0x30000001).toNat = 3 ∧ dField 0x30000001 ≠ 0 := by
  decide

/-- `EksMeaning`, `ZeroSaltEksEqualsKs`: the last salt region and one byte further; a phase that refuses. -/
theorem witness_eks :
    (fresh.err = .noError ∧ fresh.phase = .uninit ∧ fresh.loaded = true) ∧
    (1 ≤ (127 : Field).toNat ∧ (1 : Field).toNat + (127 : Field).toNat ≤ 128 ∧ (112 : Field).toNat + 16 ≤ 128) ∧
    128 < (113 : Field).toNat + 16 ∧ ¬(keyed.phase = .uninit ∧ keyed.loaded = true) ∧
    (∀ j, j < 16 → fresh.buf.read ((112 : Field).toNat + j) = 0) ∧ (opField 0x2000007F).toNat = 2 ∧
    dField 0x2000007F ≠ 0 := by
  decide

/-- `LddMeaning`: the last address and the first past it; `DONE`; an unused field. -/
theorem witness_ldd :
    State.reset.err = .noError ∧ State.reset.phase ≠ .done ∧ (104 : Field).toNat ≤ 104 ∧ 104 < (105 : Field).toNat ∧
    finished.err = .noError ∧ finished.phase = .done ∧ (opField 0x40000001).toNat = 4 ∧ dField 0x40000001 ≠ 0 := by
  decide

/-- `EncMeaning`, `EncOnDifferentPairsCommute`: both phases, the last offset and the first past it; a phase that refuses. -/
theorem witness_enc :
    keyed.err = .noError ∧ keyed.phase = .keysched ∧ ciphered.err = .noError ∧ ciphered.phase = .encipher ∧
    (4 : Field).toNat ≤ 4 ∧ 4 < (5 : Field).toNat ∧ (4 : Field).toNat % 2 = 0 ∧ (2 : Field).toNat % 2 = 0 ∧
    (4 : Field) ≠ 2 ∧ ¬(fresh.phase = .keysched ∨ fresh.phase = .encipher) ∧ (opField 0x50000080).toNat = 5 ∧
    cField 0x50000080 ≠ 0 := by
  decide

/-- `StdMeaning`: the last address and the first past it; a phase that refuses; an unused field. -/
theorem witness_std :
    ciphered.err = .noError ∧ ciphered.buf.wf = true ∧ ciphered.phase = .encipher ∧ (104 : Field).toNat ≤ 104 ∧
    104 < (105 : Field).toNat ∧ keyed.phase ≠ .encipher ∧ (opField 0x60000001).toNat = 6 ∧ dField 0x60000001 ≠ 0 := by
  decide

/-- `B64eMeaning`: the longest count, one more, length 0; an unused field. -/
theorem witness_b64e :
    halted.buf.wf = true ∧ fresh.err = .noError ∧ fresh.buf.wf = true ∧
    (1 ≤ (96 : Field).toNat ∧ (0 : Field).toNat + (96 : Field).toNat ≤ 128 ∧
      (0 : Field).toNat + (4 * (96 : Field).toNat + 2) / 3 ≤ 128) ∧
    128 < (0 : Field).toNat + (4 * (97 : Field).toNat + 2) / 3 ∧ (0 : Field).toNat = 0 ∧
    (opField 0x80000001).toNat = 8 ∧ dField 0x80000001 ≠ 0 := by
  decide

/-- `B64dMeaning`: no character, the last destination and one byte further; limit 0. -/
theorem witness_b64d :
    fresh.err = .noError ∧ fresh.buf.wf = true ∧
    (1 ≤ (8 : Field).toNat ∧ (127 : Field).toNat + (1 : Field).toNat ≤ 128 ∧
      (120 : Field).toNat + (8 : Field).toNat ≤ 128) ∧
    128 < (120 : Field).toNat + (9 : Field).toNat ∧ 128 < (127 : Field).toNat + (2 : Field).toNat ∧
    (0 : Field).toNat = 0 ∧ (0 : Field).toNat ≤ 1 := by
  decide

/-- `RoundFunction`: the largest word. -/
theorem witness_round_function : (0xFFFFFFFF : Word).toNat = 255 * 2 ^ 24 + 255 * 2 ^ 16 + 255 * 2 ^ 8 + 255 := by decide

/-- `StreamWordIsCyclic`, `KeyMixByIndex`: one byte, and the last position of three. -/
theorem witness_streams :
    0 < ([0x61] : List Byte).length ∧ 2 < ([0x61, 0x62, 0x63] : List Byte).length ∧ ([0x61] : List Byte) ≠ [] := by
  decide

/-- `KeyBytesBeyond72Unused`: keys of 72 and 127 bytes that agree in the first 72, in both phases. -/
theorem witness_key_bytes :
    let s' := { fresh with buf := bufAt 127 [0x5A] }
    fresh.err = .noError ∧ s'.err = .noError ∧ fresh.cipher = s'.cipher ∧ 72 ≤ (72 : Field).toNat ∧ 72 ≤ (127 : Field).toNat ∧
    (56 : Field).toNat + (72 : Field).toNat ≤ 128 ∧ (1 : Field).toNat + (127 : Field).toNat ≤ 128 ∧
    (∀ j, j < 72 → fresh.buf.read ((56 : Field).toNat + j) = s'.buf.read ((1 : Field).toNat + j)) ∧
    (fresh.phase = .uninit ∧ fresh.loaded = true ∧ s'.phase = .uninit ∧ s'.loaded = true) ∧ keyed.phase = .keysched ∧
    (∀ j, j < 16 → fresh.buf.read ((112 : Field).toNat + j) = s'.buf.read ((0 : Field).toNat + j)) :=
  ⟨rfl, rfl, rfl, by decide, by decide, by decide, by decide, by decide, ⟨rfl, rfl, rfl, rfl⟩, rfl, by decide⟩

/-- `InitialTablesAreDigitsOfPi`: the first and the last index. -/
theorem witness_table_index : 0 < 1042 ∧ 1041 < 1042 := by decide

/-- `AlphabetRoundTrip`: the last character. -/
theorem witness_alphabet : charSym 0x39 = some 63 := by decide

/-- `EncodeByChunks`, `EncodeIsCutBitString`: chunks of three, two and one byte. -/
theorem witness_chunks :
    ([0x48, 0x65, 0x6C, 0x6C] : List Byte) ≠ [] ∧ 3 * 0 + 2 < ([0x48, 0x65, 0x6C, 0x6C] : List Byte).length ∧
    ([0x48, 0x65, 0x6C, 0x6C] : List Byte).length = 3 * 1 + 1 ∧
    ([0x48, 0x65, 0x6C, 0x6C, 0x6F] : List Byte).length = 3 * 1 + 2 ∧
    (∃ b : Nat → Byte, ∀ k, k < 4 → ([0x48, 0x65, 0x6C, 0x6C] : List Byte)[k]? = some (b k)) ∧
    (∃ s : Nat → Sym, ∀ k, k < (b64Encode [0x48, 0x65, 0x6C, 0x6C]).length →
      (b64Encode [0x48, 0x65, 0x6C, 0x6C])[k]? = some (s k)) :=
  ⟨by decide, by decide, rfl, rfl, ⟨fun k => [0x48, 0x65, 0x6C, 0x6C].getD k 0, by decide⟩,
    ⟨fun k => (b64Encode [0x48, 0x65, 0x6C, 0x6C]).getD k 0, by decide⟩⟩

/-- `DecodeClosedForm`: the invalid character inside the input, and no invalid character at all. -/
theorem witness_decode_closed_form :
    (1 ≤ 16 ∧ 3 ≤ ([0x51, 0x45, 0x54, 0x24] : List Byte).length ∧
      (∀ j, j < 3 → ∃ ch, ([0x51, 0x45, 0x54, 0x24] : List Byte)[j]? = some ch ∧ charSym ch ≠ none) ∧
      ∀ ch, ([0x51, 0x45, 0x54, 0x24] : List Byte)[3]? = some ch → charSym ch = none) ∧
    ((∀ j, j < 2 → ∃ ch, ([0x51, 0x45] : List Byte)[j]? = some ch ∧ charSym ch ≠ none) ∧
      ∀ ch, ([0x51, 0x45] : List Byte)[2]? = some ch → charSym ch = none) := by
  refine ⟨⟨by decide, by decide, ?_, ?_⟩, ?_, ?_⟩
  · intro j hj
    obtain rfl | rfl | rfl : j = 0 ∨ j = 1 ∨ j = 2 := by omega
    · exact ⟨0x51, rfl, by decide⟩
    · exact ⟨0x45, rfl, by decide⟩
    · exact ⟨0x54, rfl, by decide⟩
  · intro ch h
    injection h with h
    subst h
    decide
  · intro j hj
    obtain rfl | rfl : j = 0 ∨ j = 1 := by omega
    · exact ⟨0x51, rfl, by decide⟩
    · exact ⟨0x45, rfl, by decide⟩
  · intro ch h
    cases h

/-- `CodecRoundTrip`: the longest count, and two runs of one `B64D` over different buffers. -/
theorem witness_codec_round_trip :
    fresh.err = .noError ∧ fresh.buf.wf = true ∧ 1 ≤ (95 : Field).toNat ∧ (95 : Field).toNat ≤ 95 ∧
    (33 : Field).toNat + (95 : Field).toNat ≤ 128 ∧ (1 : Field).toNat + (4 * (95 : Field).toNat + 2) / 3 ≤ 128 ∧
    (95 : Field).toNat ≤ (127 : Field).toNat ∧ (1 : Field).toNat + (127 : Field).toNat ≤ 128 ∧
    (∃ t, exec (.b64d 0 4 4 3) fresh = .next t) ∧
    ∃ u, exec (.b64d 0 4 4 3) { fresh with buf := bufAt 0 [0x24] } = .next u :=
  ⟨rfl, rfl, by decide, by decide, by decide, by decide, by decide, by decide, ⟨_, rfl⟩, ⟨_, rfl⟩⟩

/-- `PhaseTable`: a row with a dash, a row that moves the phase, and a host operation that is no reset. -/
theorem witness_phase_table :
    finished.err = .noError ∧ (Instr.ks 119 9).wellFormed = true ∧ finished.phase = .done ∧ fresh.err = .noError ∧
    fresh.loaded = true ∧ (∃ t, hostOp (.cmd 0x10000000) fresh = .next t) ∧ (.cmd 0x10000000 : HostOp) ≠ .cmd 0xF0000000 ∧
    (.cmd 0x10000000 : HostOp) ≠ .hardReset :=
  ⟨rfl, by decide, rfl, rfl, rfl, ⟨_, rfl⟩, by decide, by decide⟩

/-- `StatusAlongOneComputation`: the last regions and the last offset, with either schedule. -/
theorem witness_status_along :
    State.reset.status = 0 ∧ (Instr.ks 119 9).wellFormed = true ∧ (Instr.eks 1 112 127).wellFormed = true ∧
    (4 : Field).toNat ≤ 4 ∧ (104 : Field).toNat ≤ 104 := by
  decide

/-- `ElementsWrittenByTheirCommands`: steps that change `P`, `D`, `BUF`, `RLEN`, `LOADED`, `PHASE`, and `ERR` by a failing
command and by `RST`. -/
theorem witness_elements_written :
    (∃ s t : State, s.pending = [.cmd 0x40000000] ∧ step s = .next t ∧ t.d ≠ s.d) ∧
    (∃ s t : State, s.pending = [.cmd 0x80003000] ∧ step s = .next t ∧ t.rlen ≠ s.rlen) ∧
    (∃ s t : State, s.pending = [.writeBuf 127 1] ∧ step s = .next t ∧ t.buf ≠ s.buf) ∧
    (∃ s t : State, s.pending = [.cmd 0x10000000] ∧ step s = .next t ∧ t.loaded ≠ s.loaded) ∧
    (∃ s t : State, s.pending = [.cmd 0x60000000] ∧ step s = .next t ∧ t.phase ≠ s.phase) ∧
    (∃ s t : State, s.pending = [.cmd 0x70000000] ∧ step s = .next t ∧ s.err = .noError ∧ t.err ≠ s.err ∧ t.ecmd ≠ s.ecmd) ∧
    (∃ s t : State, s.pending = [.cmd 0xF0000000] ∧ step s = .next t ∧ t.err ≠ s.err ∧ t.ecmd ≠ s.ecmd) ∧
    ∃ s t : State, s.pending = [.cmd 0x10000000] ∧ step s = .next t ∧ t.cipher.p[0] ≠ s.cipher.p[0] :=
  ⟨⟨{ State.reset with buf := [(23, 1)], pending := [.cmd 0x40000000] }, _, rfl, rfl, by decide⟩,
    ⟨{ State.reset with pending := [.cmd 0x80003000] }, _, rfl, rfl, by decide⟩,
    ⟨{ State.reset with pending := [.writeBuf 127 1] }, _, rfl, rfl, by decide⟩,
    ⟨{ State.reset with pending := [.cmd 0x10000000] }, _, rfl, rfl, by decide⟩,
    ⟨{ ciphered with pending := [.cmd 0x60000000] }, _, rfl, rfl, by decide⟩,
    ⟨{ State.reset with pending := [.cmd 0x70000000] }, _, rfl, rfl, rfl, by decide, by decide⟩,
    ⟨{ halted with pending := [.cmd 0xF0000000] }, _, rfl, rfl, by decide, by decide⟩,
    ⟨{ State.reset with pending := [.cmd 0x10000000] }, _, rfl, rfl, by decide⟩⟩

/-- `StepKeepsInvariant`: a step from a state that meets the invariant. -/
theorem witness_step_keeps_invariant : ∃ t, fresh.Inv ∧ step fresh = .next t := ⟨_, witness_invariant.1, rfl⟩

/-- `HiddenStateReachesHostOnlyThroughStd`: two states that differ in `P`, `S` and `D`, no `STD` pending; and two that differ
in `P` and `S` alone, with one pending. -/
theorem witness_hidden_state :
    (∃ s t : State, SameForHost s t ∧ (∀ w, .cmd w ∈ s.pending → opField w ≠ 6) ∧ s.pending = [.cmd 0x50000004] ∧ s.d ≠ t.d) ∧
    ∃ s t : State, SameForHost s t ∧ s.d = t.d ∧ s.pending = [.cmd 0x60000000] ∧ s.cipher.p[0] ≠ t.cipher.p[0] := by
  refine ⟨⟨{ ciphered with pending := [.cmd 0x50000004] },
      { ciphered with pending := [.cmd 0x50000004], d := #v[0, 0, 0, 0, 0, 0] },
      ⟨rfl, rfl, rfl, rfl, rfl, rfl, rfl, rfl⟩, ?_, rfl, by decide⟩,
    ⟨{ ciphered with pending := [.cmd 0x60000000] },
      { ciphered with pending := [.cmd 0x60000000], cipher := Block.zero.cipher },
      ⟨rfl, rfl, rfl, rfl, rfl, rfl, rfl, rfl⟩, rfl, rfl, by decide⟩⟩
  intro w hw
  simp only [List.mem_cons, List.not_mem_nil, or_false, HostOp.cmd.injEq] at hw
  subst hw
  decide

end Sys2Proof.Tests
end

section
/-! PROOF. O50: the block never lets the host see `P` and `S`, and lets it see `D` through `STD` alone (00_scope.md rule R7).
Two blocks that agree on the rest are carried along side by side: each writer keeps the agreement, so each command does. -/

namespace Sys2Proof

/-- What the check of the unused fields accepts. -/
theorem requireZero_eq_ok {unused : List Field} {i j : Instr} :
    requireZero unused i = .ok j ↔ (∀ f ∈ unused, f = 0) ∧ i = j := by
  by_cases hz : ∀ f ∈ unused, f = 0
  · rw [requireZero_ok hz, Except.ok.injEq, and_iff_right hz]
  · rw [requireZero_error hz, iff_false_right (hz ·.1)]
    exact nofun

/-- Only a word with opcode 6 is `STD` (30_encoding.md rule R52). -/
theorem opField_of_decode_std {w : Word} {b : Field} (h : decode w = .ok (.std b)) : opField w = 6 := by
  unfold decode at h
  split at h
  case h_6 hop => exact BitVec.eq_of_toNat_eq hop
  case h_10 => cases h
  all_goals cases (requireZero_eq_ok.1 h).2

end Sys2Proof

namespace Sys2Proof.Machine

/-! ## What a command reads and keeps -/

section
variable {i : Instr} {check : Block → Err} {effect : State → State}

/-- A command's check reads `PHASE` and `LOADED` only. -/
theorem check_eq_of_phase_loaded (hi : commandParts i = some (check, effect)) {b b' : Block} (hp : b.phase = b'.phase)
    (hl : b.loaded = b'.loaded) : check b = check b' := by
  cases i <;> simp only [commandParts, Option.some.injEq, Prod.mk.injEq, reduceCtorEq] at hi <;>
    (obtain ⟨rfl, -⟩ := hi
     simp only [Block.phaseInit, Block.phaseEks, Block.phaseKs, Block.phaseLdd, Block.phaseEnc, Block.phaseStd, hp, hl])

/-- A command leaves the host's operations alone. -/
theorem effect_pending (hi : commandParts i = some (check, effect)) (s : State) : (effect s).pending = s.pending := by
  cases i <;> simp only [commandParts, Option.some.injEq, Prod.mk.injEq, reduceCtorEq] at hi <;>
    (obtain ⟨-, rfl⟩ := hi
     simp only [initEffect, eksEffect, ksEffect, lddEffect, encEffect, stdEffect, b64eEffect, b64dEffect,
       State.setCipher_pending, State.setD_pending, State.setBuf_pending, State.setPhase_pending,
       State.setLoaded_pending, State.setRlen_pending])

end

theorem exec_pending {i : Instr} {s t : State} (h : exec i s = .next t) : t.pending = s.pending := by
  obtain ⟨-, rfl⟩ | ⟨-, rfl⟩ | ⟨_, _, hi, -, ⟨-, rfl⟩ | ⟨-, rfl⟩⟩ := exec_cases h
  · rfl
  · rfl
  · rfl
  · exact effect_pending hi s

theorem hostCmd_pending {w : Word} {s t : State} (h : hostCmd w s = .next t) : t.pending = s.pending := by
  cases hw : decode w with
  | ok i => exact exec_pending (hostCmd_ok hw s ▸ h)
  | error e => obtain ⟨-, rfl⟩ | ⟨-, rfl⟩ := illegalWord_cases (hostCmd_error hw s ▸ h) <;> rfl

theorem hostOp_pending {o : HostOp} {s t : State} (h : hostOp o s = .next t) : t.pending = s.pending := by
  cases o with
  | cmd w => exact hostCmd_pending h
  | writeBuf | readBuf | readCsr | hardReset => cases h; rfl

/-- With nothing pending a step changes nothing (log 5). -/
theorem step_nil {s : State} (h : s.pending = []) : step s = .next s := by
  unfold step
  rw [h]

/-- A step takes the oldest pending operation off the list and adds none. -/
theorem step_pending {s t : State} (h : step s = .next t) : t.pending = s.pending.tail := by
  obtain ⟨hp, rfl⟩ | ⟨o, rest, hp, ho⟩ := step_cases h
  · rw [hp, List.tail_nil]
  · rw [hp, List.tail_cons, hostOp_pending ho, State.setPending_pending]

/-! ## The writers keep two blocks the same for the host -/

section
variable {s t : State}

theorem SameForHost.setCipher (h : SameForHost s t) (c c' : CipherState) :
    SameForHost (s.setCipher c) (t.setCipher c') := { h with }

theorem SameForHost.setD (h : SameForHost s t) (d d' : Vector Word 6) : SameForHost (s.setD d) (t.setD d') := { h with }

theorem SameForHost.setBuf (h : SameForHost s t) {m m' : Memory} (hm : m = m') :
    SameForHost (s.setBuf m) (t.setBuf m') := { h with buf := hm }

theorem SameForHost.setPhase (h : SameForHost s t) (p : Phase) : SameForHost (s.setPhase p) (t.setPhase p) :=
  { h with phase := rfl }

theorem SameForHost.setLoaded (h : SameForHost s t) (b : Bool) : SameForHost (s.setLoaded b) (t.setLoaded b) :=
  { h with loaded := rfl }

theorem SameForHost.setRlen (h : SameForHost s t) {n n' : Nat} (hn : n = n') :
    SameForHost (s.setRlen n) (t.setRlen n') := { h with rlen := congrArg (BitVec.ofNat 8) hn }

theorem SameForHost.setPending (h : SameForHost s t) (q : List HostOp) :
    SameForHost (s.setPending q) (t.setPending q) := { h with pending := rfl }

theorem SameForHost.reply (h : SameForHost s t) {r r' : Reply} (hr : r = r') : SameForHost (s.reply r) (t.reply r') :=
  { h with replies := congrArg₂ (fun rs x => rs ++ [x]) h.replies hr }

theorem SameForHost.raise (h : SameForHost s t) (e : Err) (w : Word) : SameForHost (s.raise e w) (t.raise e w) :=
  { h with err := rfl, ecmd := rfl }

theorem SameForHost.hardReset (h : SameForHost s t) : SameForHost s.hardReset t.hardReset :=
  ⟨rfl, rfl, rfl, rfl, rfl, rfl, h.pending, h.replies⟩

theorem SameForHost.softReset (h : SameForHost s t) : SameForHost s.softReset t.softReset :=
  ⟨h.buf, rfl, rfl, rfl, rfl, rfl, h.pending, h.replies⟩

/-- Neither CSR shows `P`, `S` or `D`. -/
theorem SameForHost.csr (h : SameForHost s t) (n : Csr) : s.csr n = t.csr n := by
  cases n with
  | status => simp only [Block.csr, Block.status, h.rlen, h.err, h.loaded, h.phase]
  | ecmd => exact h.ecmd

/-! ## Commands, host operations, steps and runs -/

/-- Executed commands: `INIT`, the schedules, `LDD` and `ENC` write hidden elements and what the host knows already, the codec
commands copy from `BUF` to `BUF`; `STD` alone copies `D` out, and never `P` or `S`. -/
theorem SameForHost.effect {i : Instr} {check : Block → Err} {effect : State → State}
    (hi : commandParts i = some (check, effect)) (h : SameForHost s t) (hd : ∀ b, i = .std b → s.d = t.d) :
    SameForHost (effect s) (effect t) := by
  cases i <;> simp only [commandParts, Option.some.injEq, Prod.mk.injEq, reduceCtorEq] at hi <;>
    obtain ⟨-, rfl⟩ := hi
  case init => exact (h.setCipher _ _).setLoaded true
  case eks | ks => exact (h.setCipher _ _).setPhase .keysched
  case ldd => exact h.setD _ _
  case enc => exact (h.setD _ _).setPhase .encipher
  case std b => exact (h.setBuf (by rw [h.buf, hd b rfl])).setPhase .done
  case b64e => exact (h.setBuf (by rw [h.buf])).setRlen rfl
  case b64d => exact (h.setBuf (by rw [h.buf])).setRlen (by rw [h.buf])

/-- Both answers are next states, and the two are the same for the host. -/
def BothNext (x y : Result) : Prop := ∃ s' t', x = .next s' ∧ y = .next t' ∧ SameForHost s' t'

/-- The shared operation looks at `ERR` only, which the two states have in common. -/
theorem SameForHost.command (h : SameForHost s t) (w : Word) {e e' : Err} (he : e = e') {f : State → State}
    (hf : SameForHost (f s) (f t)) : BothNext (command w e f s) (command w e' f t) := by
  subst he
  by_cases hs : s.err = .noError
  · rw [command_running hs, command_running (h.err ▸ hs)]
    refine ⟨_, _, rfl, rfl, ?_⟩
    split
    · exact hf
    · exact h.raise e w
  · rw [command_halted hs, command_halted (h.err ▸ hs)]
    exact ⟨s, t, rfl, rfl, h⟩

theorem SameForHost.exec {i : Instr} (h : SameForHost s t) (hd : ∀ b, i = .std b → s.d = t.d) :
    BothNext (exec i s) (exec i t) := by
  cases hi : commandParts i with
  | none =>
    obtain rfl := commandParts_eq_none.1 hi
    exact ⟨_, _, exec_rst s, exec_rst t, h.softReset⟩
  | some parts =>
    rw [exec_eq_command hi, exec_eq_command hi]
    exact h.command _ (check_eq_of_phase_loaded hi h.phase h.loaded) (h.effect hi hd)

theorem SameForHost.illegalWord (h : SameForHost s t) (e : DecodeError) (w : Word) :
    BothNext (illegalWord e w s) (illegalWord e w t) := by
  by_cases hs : s.err = .noError
  · exact ⟨_, _, illegalWord_running hs e w, illegalWord_running (h.err ▸ hs) e w, h.raise _ w⟩
  · exact ⟨_, _, illegalWord_halted hs e w, illegalWord_halted (h.err ▸ hs) e w, h⟩

theorem SameForHost.hostCmd {w : Word} (h : SameForHost s t) (hd : opField w = 6 → s.d = t.d) :
    BothNext (hostCmd w s) (hostCmd w t) := by
  cases hw : decode w with
  | ok i =>
    rw [hostCmd_ok hw, hostCmd_ok hw]
    exact h.exec fun b hb => hd (opField_of_decode_std (hb ▸ hw))
  | error e =>
    rw [hostCmd_error hw, hostCmd_error hw]
    exact h.illegalWord e w

theorem SameForHost.hostOp {o : HostOp} (h : SameForHost s t) (hd : ∀ w, o = .cmd w → opField w = 6 → s.d = t.d) :
    BothNext (hostOp o s) (hostOp o t) := by
  cases o with
  | cmd w => exact h.hostCmd (hd w rfl)
  | writeBuf addr v => exact ⟨_, _, rfl, rfl, h.setBuf (by rw [h.buf])⟩
  | readBuf addr => exact ⟨_, _, rfl, rfl, h.reply (by rw [h.buf])⟩
  | readCsr n => exact ⟨_, _, rfl, rfl, h.reply (by rw [h.csr])⟩
  | hardReset => exact ⟨_, _, rfl, rfl, h.hardReset⟩

/-- One step, `D` being the same where the step performs a word of `STD`'s opcode. -/
theorem SameForHost.step (h : SameForHost s t)
    (hd : ∀ w rest, s.pending = .cmd w :: rest → opField w = 6 → s.d = t.d) : BothNext (step s) (step t) := by
  cases hp : s.pending with
  | nil => exact ⟨s, t, step_nil hp, step_nil (h.pending ▸ hp), h⟩
  | cons o rest =>
    rw [step_cons hp, step_cons (h.pending ▸ hp)]
    exact (h.setPending rest).hostOp fun w hw => hd w rest (hw ▸ hp)

/-- No `STD` is ever performed, as no step adds an operation; so every step keeps the two states the same for the host. -/
theorem SameForHost.run (h : SameForHost s t) (noStd : ∀ w, .cmd w ∈ s.pending → opField w ≠ 6) (n : Nat) :
    BothNext (core.run n s) (core.run n t) := by
  induction n generalizing s t with
  | zero => exact ⟨s, t, rfl, rfl, h⟩
  | succ n ih =>
    obtain ⟨s', t', hs, ht, h'⟩ := h.step fun w rest hp hw => absurd hw (noStd w (hp ▸ List.mem_cons_self))
    rw [run_succ hs, run_succ ht]
    exact ih h' fun w hw => noStd w (List.mem_of_mem_tail (step_pending hs ▸ hw))

end

/-- Settles O50: along a run without `STD` by induction on the number of steps, with `D` the same by the lemma on one step. -/
theorem hiddenStateReachesHostOnlyThroughStd : Obligations.HiddenStateReachesHostOnlyThroughStd :=
  ⟨fun n _ _ h noStd => h.run noStd n, fun _ _ h hd => h.step fun _ _ _ _ => hd⟩

end Sys2Proof.Machine
end

section
/-! PROOF. What the statements of 10_state.md have in common: a word is the word of what it decodes to, the error tables of
60_exceptions.md rule R122 say the machine's own checks, and so `HostCmd` of any word has one of four ends. -/

namespace Sys2Proof

/-- What the check of the unused fields rejects. -/
theorem requireZero_eq_error {unused : List Field} {i : Instr} {e : DecodeError} :
    requireZero unused i = .error e ↔ (¬∀ f ∈ unused, f = 0) ∧ e = .field := by
  by_cases hz : ∀ f ∈ unused, f = 0
  · rw [requireZero_ok hz, iff_false_right (·.1 hz)]
    exact nofun
  · rw [requireZero_error hz, and_iff_right hz, Except.error.injEq, eq_comm]

/-- A word that decodes is the word of its command: the decoder drops no bit (log 7). -/
theorem encode_of_decode {w : Word} {i : Instr} (h : decode w = .ok i) : encode i = w := by
  unfold decode at h
  split at h
  case h_10 => cases h
  all_goals
    rename_i hop
    have hop' := congrArg (BitVec.ofNat 4) hop
    simp only [BitVec.ofNat_toNat, BitVec.setWidth_eq] at hop'
    obtain ⟨hz, rfl⟩ := requireZero_eq_ok.1 h
    simp only [List.forall_mem_cons, List.not_mem_nil, false_imp_iff, implies_true, and_true] at hz
    refine .trans ?_ (pack_fields w)
    simp only [encode, hop', hz]
    rfl

theorem decode_encode (i : Instr) : decode (encode i) = .ok i := by
  cases i <;> simp [decode, encode, opField_pack, aField_pack, bField_pack, cField_pack, dField_pack, requireZero]

end Sys2Proof

namespace Sys2Proof.Machine

/-! ## The error tables -/

/-- The machine's order of checks is the order of 60_exceptions.md rule R129. -/
theorem firstError_eq_firstOf (p l r : Bool) : firstError p l r = firstOf [(.phase, !p), (.len, !l), (.range, !r)] := by
  cases p <;> cases l <;> cases r <;> rfl

/-- Of the block, the error tables read `PHASE` and `LOADED` only. -/
theorem errorOf_congr (w : Word) {b b' : Block} (hp : b.phase = b'.phase) (hl : b.loaded = b'.loaded) :
    errorOf w b = errorOf w b' := by
  simp only [errorOf, hp, hl]

/-- The error of a word that is no command: its opcode has no row, or a field its row does not use is not zero. -/
theorem errorOf_of_decode_error {w : Word} {e : DecodeError} (h : decode w = .error e) (b : Block) :
    errorOf w b = DecodeError.toErr e := by
  unfold decode at h
  split at h
  case h_8 => cases h
  case h_10 =>
    cases h
    unfold errorOf
    split
    case h_10 => rfl
    all_goals contradiction
  all_goals
    rename_i hop
    obtain ⟨hz, rfl⟩ := requireZero_eq_error.1 h
    simp only [List.forall_mem_cons, List.not_mem_nil, false_imp_iff, implies_true, and_true, not_and_or] at hz
    simp only [errorOf, hop]
    refine if_pos ?_
    simpa [← BitVec.toNat_inj] using hz

section
variable {i : Instr} {check : Block → Err} {effect : State → State} {w : Word} {s t : State}

/-- The error of a command's word is what the command checks. -/
theorem errorOf_encode (hi : commandParts i = some (check, effect)) (b : Block) : errorOf (encode i) b = check b := by
  cases i <;> cases hi <;>
    simp [errorOf, encode, opField_pack, aField_pack, bField_pack, cField_pack, dField_pack, firstError_eq_firstOf,
      firstOf, Block.phaseInit, Block.phaseEks, Block.phaseKs, Block.phaseLdd, Block.phaseEnc, Block.phaseStd]

/-- How `HostCmd(w)` can end: a reset, ignored, failed with `w` recorded, or executed. -/
theorem hostCmd_cases (h : hostCmd w s = .next t) :
    (w = encode .rst ∧ t = s.softReset) ∨ (s.err ≠ .noError ∧ t = s) ∨
      (s.err = .noError ∧ errorOf w s.toBlock ≠ .noError ∧ t = s.raise (errorOf w s.toBlock) w) ∨
        ∃ i check effect, decode w = .ok i ∧ commandParts i = some (check, effect) ∧ s.err = .noError ∧
          check s.toBlock = .noError ∧ t = effect s := by
  cases hw : decode w with
  | ok i =>
    have word := encode_of_decode hw
    obtain ⟨rfl, ht⟩ | halted | ⟨check, effect, hi, hs, ⟨he, ht⟩ | ⟨he, ht⟩⟩ := exec_cases (hostCmd_ok hw s ▸ h)
    · exact .inl ⟨word.symm, ht⟩
    · exact .inr (.inl halted)
    · rw [← errorOf_encode hi, word] at he ht
      exact .inr (.inr (.inl ⟨hs, he, ht⟩))
    · exact .inr (.inr (.inr ⟨i, check, effect, rfl, hi, hs, he, ht⟩))
  | error e =>
    obtain halted | ⟨hs, ht⟩ := illegalWord_cases (hostCmd_error hw s ▸ h)
    · exact .inr (.inl halted)
    · have he := errorOf_of_decode_error hw s.toBlock
      exact .inr (.inr (.inl ⟨hs, by rw [he]; cases e <;> exact nofun, he ▸ ht⟩))

end

/-! ## The elements a command writes -/

/-- The "written by" column of the opening table of 10_state.md for the commands that are executed: an element in which `t`
differs from `s` is one the command `i` writes. -/
structure Writes (i : Instr) (s t : State) : Prop where
  cipher : t.cipher ≠ s.cipher → i = .init ∨ i = .rst ∨ (∃ a b c, i = .eks a b c) ∨ ∃ a c, i = .ks a c
  d : t.d ≠ s.d → i = .rst ∨ (∃ a, i = .ldd a) ∨ ∃ d, i = .enc d
  buf : t.buf ≠ s.buf → (∃ b, i = .std b) ∨ (∃ a b c, i = .b64e a b c) ∨ ∃ a b c d, i = .b64d a b c d
  phase : t.phase ≠ s.phase →
    i = .rst ∨ (∃ a b c, i = .eks a b c) ∨ (∃ a c, i = .ks a c) ∨ (∃ d, i = .enc d) ∨ ∃ b, i = .std b
  loaded : t.loaded ≠ s.loaded → i = .rst ∨ i = .init
  rlen : t.rlen ≠ s.rlen → i = .rst ∨ (∃ a b c, i = .b64e a b c) ∨ ∃ a b c d, i = .b64d a b c d
  err : t.err ≠ s.err → i = .rst
  ecmd : t.ecmd ≠ s.ecmd → i = .rst
  replies : t.replies = s.replies

theorem softReset_writes (s : State) : Writes .rst s s.softReset := by
  constructor <;> simp

section
variable {i : Instr} {check : Block → Err} {effect : State → State}

theorem effect_writes (hi : commandParts i = some (check, effect)) (s : State) : Writes i s (effect s) := by
  cases i <;> cases hi
  all_goals
    constructor <;>
      simp [initEffect, eksEffect, ksEffect, lddEffect, encEffect, stdEffect, b64eEffect, b64dEffect]

/-- An executed command but `RST` records no error. -/
theorem effect_err (hi : commandParts i = some (check, effect)) (s : State) : (effect s).err = s.err :=
  of_not_not fun h => by cases (effect_writes hi s).err h; cases hi

theorem effect_ecmd (hi : commandParts i = some (check, effect)) (s : State) : (effect s).ecmd = s.ecmd :=
  of_not_not fun h => by cases (effect_writes hi s).ecmd h; cases hi

end

end Sys2Proof.Machine
end

section
/-! PROOF. O49, O48, O7: the invariant `State.Inv` holds after a reset and is kept by every writer as the commands use it, so by
every host operation and every step; `ECMD` (10_state.md rule R20) is a part of it. -/

namespace Sys2Proof.Machine

/-! ## How much the commands write into `BUF` -/

theorem length_flatMap_bytesBe (ws : List Word) : (ws.flatMap bytesBe).length = 4 * ws.length := by
  simp [List.length_flatMap, bytesBe, Nat.mul_comm]

/-- `Encode` gives `ceil(4n/3)` symbols (43_base64.md rule R103). -/
theorem length_b64Encode (bs : List Byte) : (b64Encode bs).length = encodedLen bs.length := by
  induction bs using b64Encode.induct with
  | case1 b0 b1 b2 rest ih => simp [b64Encode, ih]; omega
  | case2 | case3 | case4 => simp [b64Encode]

/-- `Decode` stops at its limit (43_base64.md rule R106). -/
theorem length_b64Decode_le (cs : List Byte) (max : Nat) : (b64Decode cs max).length ≤ max := by
  fun_induction b64Decode cs max <;> grind

/-! ## What the invariant gives, and the writers that keep it -/

namespace State.Inv

variable {s : State}

theorem ecmd_eq_zero (h : s.Inv) (he : s.err = .noError) : s.ecmd = 0 :=
  h.recorded.elim (·.2) fun halted => absurd he halted.1

/-- Past `UNINIT` the tables are loaded (10_state.md rule R17). -/
theorem loaded_of_phase (h : s.Inv) (hp : s.phase ≠ .uninit) : s.loaded = true :=
  Bool.eq_true_of_not_eq_false fun hl => hp (h.unloaded hl).1

theorem setD (h : s.Inv) (d : Vector Word 6) : (s.setD d).Inv := { h with }

theorem setBuf (h : s.Inv) {m : Memory} (hm : m.wf = true) : (s.setBuf m).Inv := { h with bufWf := hm }

theorem setRlen (h : s.Inv) {n : Nat} (hn : n ≤ 128) : (s.setRlen n).Inv :=
  { h with rlenLe := by rw [State.setRlen_rlen, BitVec.toNat_ofNat]; omega }

theorem setPending (h : s.Inv) (q : List HostOp) : (s.setPending q).Inv := { h with }

theorem reply (h : s.Inv) (r : Reply) : (s.reply r).Inv := { h with }

/-- Recording an error leaves the phase as it is, so the word goes on raising that error. -/
theorem raise (h : s.Inv) {w : Word} (he : errorOf w s.toBlock ≠ .noError) :
    (s.raise (errorOf w s.toBlock) w).Inv :=
  { h with recorded := .inr ⟨he, errorOf_congr w rfl rfl⟩ }

/-- Once loaded, a block that is not halted may leave `UNINIT` with any `P`, `S`. -/
theorem setCipher_setPhase (h : s.Inv) (he : s.err = .noError) (hl : s.loaded = true) (c : CipherState) {p : Phase}
    (hp : p ≠ .uninit) : ((s.setCipher c).setPhase p).Inv :=
  { h with
    recorded := .inl ⟨he, h.ecmd_eq_zero he⟩
    unloaded := fun hl' => absurd hl (Bool.eq_false_iff.1 hl')
    fresh := fun _ hp' => absurd hp' hp }

theorem setPhase (h : s.Inv) (he : s.err = .noError) (hl : s.loaded = true) {p : Phase} (hp : p ≠ .uninit) :
    (s.setPhase p).Inv :=
  h.setCipher_setPhase he hl s.cipher hp

theorem initEffect (h : s.Inv) (he : s.err = .noError) : (initEffect s).Inv where
  bufWf := h.bufWf
  rlenLe := h.rlenLe
  recorded := .inl ⟨he, h.ecmd_eq_zero he⟩
  unloaded := nofun
  fresh _ _ := rfl

/-- A block that is zero but for a canonical `BUF`, as a reset leaves it, meets the invariant. -/
theorem of_zero (hz : s.toBlock = { Block.zero with buf := s.buf }) (hm : s.buf.wf = true) : s.Inv where
  bufWf := hm
  rlenLe := by rw [hz]; exact Nat.zero_le 128
  recorded := .inl (by rw [hz]; exact ⟨rfl, rfl⟩)
  unloaded _ := by rw [hz]; exact ⟨rfl, rfl⟩
  fresh hl := by rw [hz] at hl; cases hl

theorem softReset (h : s.Inv) : s.softReset.Inv := of_zero rfl h.bufWf

theorem hardReset (s : State) : s.hardReset.Inv := of_zero rfl rfl

/-! ## Commands and host operations -/

/-- An executed command: its range check keeps what it writes inside `BUF`, its phase check has the tables loaded before the
phase leaves `UNINIT`. -/
theorem effect {i : Instr} {check : Block → Err} {effect : State → State} (h : s.Inv)
    (hi : commandParts i = some (check, effect)) (he : s.err = .noError) (hc : check s.toBlock = .noError) :
    (effect s).Inv := by
  cases i <;> cases hi <;> simp only [firstError_eq_noError, Bool.and_eq_true, regionOk_eq_true, true_and] at hc
  case init => exact h.initEffect he
  case eks => exact h.setCipher_setPhase he (phaseEks_eq_true.1 hc.1).2 _ nofun
  case ks =>
    obtain ⟨-, hl⟩ | hp := phaseKs_eq_true.1 hc.1
    · exact h.setCipher_setPhase he hl _ nofun
    · exact h.setCipher_setPhase he (h.loaded_of_phase (by simp [hp])) _ nofun
  case ldd => exact h.setD _
  case enc =>
    have hp : s.phase ≠ .uninit := by obtain hp | hp := phaseEnc_eq_true.1 hc.1 <;> simp [hp]
    refine (h.setD _).setPhase ?_ ?_ nofun
    exacts [he, h.loaded_of_phase hp]
  case std =>
    have hp : s.phase ≠ .uninit := by simp [phaseStd_eq_true.1 hc.1]
    have len : (s.d.toList.flatMap bytesBe).length = Config.dataBytes := by
      rw [length_flatMap_bytesBe, Vector.length_toList]
    exact (h.setBuf (Memory.wf_writeBytes h.bufWf (len ▸ hc.2))).setPhase he (h.loaded_of_phase hp) nofun
  case b64e a b c =>
    obtain ⟨-, -, hb⟩ := hc
    refine (h.setBuf (Memory.wf_writeBytes h.bufWf ?_)).setRlen (by omega)
    rwa [List.length_map, length_b64Encode, Memory.length_readBytes]
  case b64d a b c d =>
    obtain ⟨-, -, hb⟩ := hc
    have len := length_b64Decode_le (s.buf.readBytes a.toNat c.toNat) d.toNat
    exact (h.setBuf (Memory.wf_writeBytes h.bufWf (by simp only [Config.bufSize]; omega))).setRlen (by omega)

theorem hostOp {o : HostOp} {t : State} (h : s.Inv) (ho : hostOp o s = .next t) : t.Inv := by
  cases o with
  | cmd w =>
    obtain ⟨-, rfl⟩ | ⟨-, rfl⟩ | ⟨-, he, rfl⟩ | ⟨_, _, _, -, hi, hs, hc, rfl⟩ := hostCmd_cases ho
    · exact h.softReset
    · exact h
    · exact h.raise he
    · exact h.effect hi hs hc
  | writeBuf addr v => cases ho; exact h.setBuf (Memory.wf_write h.bufWf addr.isLt)
  | readBuf | readCsr => cases ho; exact h.reply _
  | hardReset => cases ho; exact hardReset s

end State.Inv

/-- Settles O49: a step is idle or performs the oldest pending operation, and every operation keeps the invariant. -/
theorem stepKeepsInvariant : Obligations.StepKeepsInvariant := by
  intro s t h hst
  obtain ⟨-, rfl⟩ | ⟨o, rest, -, ho⟩ := step_cases hst
  · exact h
  · exact (h.setPending rest).hostOp ho

/-- Settles O48: power-on is a reset. -/
theorem resetMeetsInvariant : Obligations.ResetMeetsInvariant := State.Inv.of_zero rfl rfl

/-- Settles O7: that `ECMD` is 0 while `ERR` is 0 is the invariant of the state after the operation; the rest is read off the
four ends of `HostCmd`. -/
theorem ecmdHoldsFailingWord : Obligations.EcmdHoldsFailingWord := by
  intro s t o h ho
  refine ⟨?_, (h.hostOp ho).ecmd_eq_zero, ?_⟩
  · rintro rfl
    cases ho
    rfl
  cases o with
  | cmd w =>
    obtain ⟨rfl, rfl⟩ | ⟨he, rfl⟩ | ⟨he, he', rfl⟩ | ⟨_, _, _, -, hi, he, -, rfl⟩ := hostCmd_cases ho
    · exact ⟨fun _ he' => absurd rfl he', fun _ => .inr ⟨rfl, .inl rfl⟩, fun _ hw => absurd rfl (hw _)⟩
    · exact ⟨fun he' => absurd he' he, absurd rfl, fun _ hw => absurd rfl (hw w)⟩
    · exact ⟨fun _ _ => ⟨w, rfl, rfl⟩, fun _ => .inl ⟨he, he'⟩, fun _ hw => absurd rfl (hw w)⟩
    · exact ⟨fun _ he' => absurd ((effect_err hi s).trans he) he', absurd (effect_ecmd hi s),
        fun _ hw => absurd rfl (hw w)⟩
  | writeBuf | readBuf | readCsr =>
    cases ho
    exact ⟨fun he he' => absurd he he', absurd rfl, fun _ _ => ⟨rfl, rfl, rfl, rfl, rfl⟩⟩
  | hardReset =>
    cases ho
    exact ⟨fun _ he' => absurd rfl he', fun _ => .inr ⟨rfl, .inr rfl⟩, absurd rfl⟩

end Sys2Proof.Machine
end

section
/-! PROOF. O45: with legal operands a command's only check that can fail is that of its phase, and an executed command leaves
the phase or moves it to the next one (10_state.md rule R15). -/

namespace Sys2Proof.Machine

/-- The command's check of the phase; the codec commands and `RST` have none. -/
def phaseOk : Instr → Block → Bool
  | .init, k => k.phaseInit
  | .eks _ _ _, k => k.phaseEks
  | .ks _ _, k => k.phaseKs
  | .ldd _, k => k.phaseLdd
  | .enc _, k => k.phaseEnc
  | .std _, k => k.phaseStd
  | .b64e _ _ _, _ | .b64d _ _ _ _, _ | .rst, _ => true

section
variable {i : Instr} {check : Block → Err} {effect : State → State} {s : State}

theorem check_of_wellFormed (hi : commandParts i = some (check, effect)) (hw : i.wellFormed = true) (k : Block) :
    check k = if phaseOk i k = true then .noError else .phase := by
  cases i <;> cases hi <;> simp_all [Instr.wellFormed, inBuf, phaseOk, firstError_eq]

/-- With legal operands a command is executed where its phase check passes, and elsewhere raises `E_PHASE`. -/
theorem exec_of_wellFormed (hi : commandParts i = some (check, effect)) (hw : i.wellFormed = true)
    (he : s.err = .noError) :
    exec i s = .next (if phaseOk i s.toBlock = true then effect s else s.raise .phase (encode i)) := by
  rw [exec_eq_command hi, command_running he, check_of_wellFormed hi hw]
  split <;> rfl

theorem effect_phase_forward (hi : commandParts i = some (check, effect)) (hc : check s.toBlock = .noError) :
    (effect s).phase.code.toNat = s.phase.code.toNat ∨ (effect s).phase.code.toNat = s.phase.code.toNat + 1 := by
  cases i <;> cases hi <;> simp only [firstError_eq_noError] at hc
  case init | ldd | b64e | b64d => exact .inl rfl
  case eks =>
    obtain ⟨hp, -⟩ := phaseEks_eq_true.1 hc.1
    exact .inr (by simp [eksEffect, hp, Phase.code])
  case ks =>
    obtain ⟨hp, -⟩ | hp := phaseKs_eq_true.1 hc.1
    · exact .inr (by simp [ksEffect, hp, Phase.code])
    · exact .inl (by simp [ksEffect, hp])
  case enc =>
    obtain hp | hp := phaseEnc_eq_true.1 hc.1
    · exact .inr (by simp [encEffect, hp, Phase.code])
    · exact .inl (by simp [encEffect, hp])
  case std => exact .inr (by simp [stdEffect, phaseStd_eq_true.1 hc.1, Phase.code])

end

theorem hostOp_phase_forward {o : HostOp} {s t : State} (h : hostOp o s = .next t) (rst : o ≠ .cmd (encode .rst))
    (reset : o ≠ .hardReset) :
    t.phase.code.toNat = s.phase.code.toNat ∨ t.phase.code.toNat = s.phase.code.toNat + 1 := by
  cases o with
  | cmd w =>
    obtain ⟨rfl, -⟩ | ⟨-, rfl⟩ | ⟨-, -, rfl⟩ | ⟨_, _, _, -, hi, -, hc, rfl⟩ := hostCmd_cases h
    · exact absurd rfl rst
    · exact .inl rfl
    · exact .inl rfl
    · exact effect_phase_forward hi hc
  | writeBuf | readBuf | readCsr => cases h; exact .inl rfl
  | hardReset => exact absurd rfl reset

/-- Settles O45: the table cell by cell, for `EKS` and `KS` with `LOADED` 0 and 1. -/
theorem phaseTable : Obligations.PhaseTable := by
  refine ⟨⟨rfl, rfl, rfl, rfl⟩, ?_, fun o s t => hostOp_phase_forward⟩
  intro s i he hw
  cases i
  case rst => exact ⟨_, rfl, rfl, rfl, rfl⟩
  all_goals rw [exec_of_wellFormed rfl hw he]
  case eks | ks =>
    cases hp : s.phase <;> cases hl : s.loaded <;> simp [phaseOk, State.raise, eksEffect, ksEffect, hp, hl, he]
  all_goals
    cases hp : s.phase <;>
      simp [phaseOk, State.raise, initEffect, lddEffect, encEffect, stdEffect, b64eEffect, b64dEffect, hp, he]

end Sys2Proof.Machine
end

section
/-! PROOF. O47: a command that is ignored writes nothing, one that fails writes `ERR` and `ECMD`, and an executed one writes
what the table says (10_state.md rule R21). -/

namespace Sys2Proof.Machine

theorem hostCmd_writes {w : Word} {s t : State} (h : hostCmd w s = .next t) :
    t = s ∨ (s.err = .noError ∧ ∃ e, e ≠ .noError ∧ t = s.raise e w) ∨ ∃ i, decode w = .ok i ∧ Writes i s t := by
  obtain ⟨rfl, rfl⟩ | ⟨-, rfl⟩ | ⟨hs, he, rfl⟩ | ⟨i, _, _, hw, hi, -, -, rfl⟩ := hostCmd_cases h
  · exact .inr (.inr ⟨.rst, decode_encode .rst, softReset_writes s⟩)
  · exact .inl rfl
  · exact .inr (.inl ⟨hs, _, he, rfl⟩)
  · exact .inr (.inr ⟨i, hw, effect_writes hi s⟩)

/-- Settles O47: by the operation performed; the host's own operations write `BUF` or `replies` only. -/
theorem elementsWrittenByTheirCommands : Obligations.ElementsWrittenByTheirCommands := by
  intro s t o rest hp h ho
  have hop : hostOp o (s.setPending rest) = .next t := step_cons hp ▸ h
  cases o with
  | cmd w =>
    obtain rfl | ⟨hs, e, he, rfl⟩ | ⟨i, hw, hx⟩ := hostCmd_writes hop
    · simp
    · simpa using fun _ => .inr ⟨hs, he⟩
    · have rst (hi : i = .rst) : w = encode .rst := (encode_of_decode (hi ▸ hw)).symm
      exact ⟨fun h => ⟨w, i, rfl, hw, hx.cipher h⟩, fun h => ⟨w, i, rfl, hw, hx.d h⟩,
        fun h => .inr ⟨w, i, rfl, hw, hx.buf h⟩, fun h => ⟨w, i, rfl, hw, hx.phase h⟩,
        fun h => ⟨w, i, rfl, hw, hx.loaded h⟩, fun h => ⟨w, i, rfl, hw, hx.rlen h⟩,
        fun h => ⟨w, rfl, .inl (rst (h.elim hx.err hx.ecmd))⟩, hostOp_pending hop, fun _ _ => hx.replies⟩
  | writeBuf | readBuf | readCsr => cases hop; simp
  | hardReset => exact absurd rfl ho

end Sys2Proof.Machine
end

section
/-! PROOF. O6: `STATUS` as a number (10_state.md rule R19). -/

namespace Sys2Proof.Machine

theorem toNat_append_eq_add {n m : Nat} (x : BitVec n) (y : BitVec m) :
    (x ++ y).toNat = 2 ^ m * x.toNat + y.toNat := by
  rw [BitVec.toNat_append, ← Nat.shiftLeft_add_eq_or_of_lt y.isLt, Nat.shiftLeft_eq, Nat.mul_comm]

theorem Block.status_toNat (b : Block) : b.status.toNat =
    b.phase.code.toNat + 2 ^ 2 * (BitVec.ofBool b.loaded).toNat + 2 ^ 4 * b.err.code.toNat + 2 ^ 8 * b.rlen.toNat := by
  simp only [Block.status, toNat_append_eq_add, BitVec.toNat_ofNat]
  omega

/-- Settles O6: `STATUS` as a number, with the code of each phase and of each error. -/
theorem statusReadsItsFields : Obligations.StatusReadsItsFields := by
  intro s
  refine ⟨s.status, rfl, ?_⟩
  rw [Block.status_toNat]
  congr 3
  · cases s.phase <;> rfl
  · cases s.loaded <;> rfl
  · cases s.err <;> rfl

end Sys2Proof.Machine
end

section
/-! PROOF. O4, O5: the host reads the byte it wrote (20_memory.md rules R33, R40). An operation that neither is a command nor a
reset nor writes the address leaves the byte there as it is, so a run of such operations does. -/

namespace Sys2Proof.Machine

/-- Settles O4: the rule for a read after a write of a canonical memory. -/
theorem hostBufferAccess : Obligations.HostBufferAccess := by
  intro s addr v h
  have read := Memory.read_write h addr.toNat (v := v)
  exact ⟨⟨_, rfl, rfl, (read _).trans (if_pos rfl), fun a ha => (read a).trans (if_neg ha)⟩, rfl⟩

/-- The operation writes another address, reads a byte or reads a register. -/
def KeepsByteAt (addr : Field) (o : HostOp) : Prop :=
  (∃ x u, o = .writeBuf x u ∧ x ≠ addr) ∨ (∃ x, o = .readBuf x) ∨ ∃ n, o = .readCsr n

section
variable {s : State} {addr : Field}

theorem hostOp_keepsByteAt {o : HostOp} (ho : KeepsByteAt addr o) (h : s.buf.wf = true) :
    ∃ t, hostOp o s = .next t ∧ t.buf.wf = true ∧ t.buf.read addr.toNat = s.buf.read addr.toNat := by
  obtain ⟨x, u, rfl, hx⟩ | ⟨x, rfl⟩ | ⟨n, rfl⟩ := ho
  · have other : addr.toNat ≠ x.toNat := fun e => hx (BitVec.eq_of_toNat_eq e.symm)
    exact ⟨_, rfl, Memory.wf_write h x.isLt, (Memory.read_write h ..).trans (if_neg other)⟩
  · exact ⟨_, rfl, h, rfl⟩
  · exact ⟨_, rfl, h, rfl⟩

/-- The last value returned is the byte that stood at the address before the operations in between. -/
theorem run_readBuf_of_keepsByteAt {between rest : List HostOp} (h : s.buf.wf = true)
    (hp : s.pending = between ++ .readBuf addr :: rest) (hb : ∀ o ∈ between, KeepsByteAt addr o) :
    ∃ t : State, core.run (between.length + 1) s = .next t ∧
      t.replies.getLast? = some (.byte (s.buf.read addr.toNat)) ∧ t.pending = rest := by
  induction between generalizing s with
  | nil => exact ⟨_, run_succ (step_cons hp) 0, List.getLast?_concat, rfl⟩
  | cons o between ih =>
    obtain ⟨ho, hb⟩ := List.forall_mem_cons.1 hb
    obtain ⟨t, hop, ht, same⟩ := hostOp_keepsByteAt (s := s.setPending (between ++ .readBuf addr :: rest)) ho h
    rw [List.length_cons, run_succ ((step_cons hp).trans hop), ← State.setPending_buf s, ← same]
    exact ih ht (hostOp_pending hop) hb

end

/-- Settles O5: the write puts the byte there, the operations in between keep it, the read returns it. -/
theorem readReturnsLatestWrite : Obligations.ReadReturnsLatestWrite := by
  intro s addr v between rest h hp hb
  have written : (s.buf.write addr.toNat v).read addr.toNat = v := (Memory.read_write h ..).trans (if_pos rfl)
  obtain ⟨t, run, last, pending⟩ := run_readBuf_of_keepsByteAt
    (s := (s.setPending (between ++ .readBuf addr :: rest)).setBuf (s.buf.write addr.toNat v))
    (Memory.wf_write h addr.isLt) rfl hb
  exact ⟨t, (run_succ (step_cons hp) _).trans run, last.trans (congrArg (some ∘ Reply.byte) written), pending⟩

end Sys2Proof.Machine
end

section
/-! PROOF. O12, O13, O11, O10: the decoder and the encoder undo each other, and the five fields of a word as numbers
(30_encoding.md rule R50). -/

namespace Sys2Proof

/-- Settles O12: the decoder finds the row of the opcode and the fields the encoder packed. -/
theorem decodeOfEncode : Obligations.DecodeOfEncode := decode_encode

/-- Settles O13: the fields of the word make it up, and those the command does not keep are zero. -/
theorem encodeOfDecode : Obligations.EncodeOfDecode := fun _ _ => encode_of_decode

/-- The word of five fields as a number. -/
theorem pack_toNat (op : BitVec 4) (a b c d : Field) : (pack op a b c d).toNat =
    op.toNat * 2 ^ 28 + a.toNat * 2 ^ 21 + b.toNat * 2 ^ 14 + c.toNat * 2 ^ 7 + d.toNat := by
  simp only [pack, Machine.toNat_append_eq_add]
  omega

/-- Settles O11: a word is its fields side by side; a field is the word shifted right, of which its width is kept. -/
theorem commandFormat : Obligations.CommandFormat := by
  refine ⟨fun w => ⟨(pack_fields w).symm, ?_⟩, pack_toNat⟩
  have opWidth : w.toNat / 2 ^ 28 < 2 ^ 4 := by omega
  simp only [opField, aField, bField, cField, dField, BitVec.extractLsb'_toNat, Nat.shiftRight_eq_div_pow,
    Nat.mod_eq_of_lt opWidth, Nat.pow_zero, Nat.div_one, and_self]

/-- Settles O10: the nine words are the encoder's, so each decodes to its command. -/
theorem sampleWordsDecode : Obligations.SampleWordsDecode :=
  ⟨decode_encode .init, decode_encode (.eks 0 72 1), decode_encode (.ks 0 8), decode_encode (.ldd 88),
    decode_encode (.enc 4), decode_encode (.std 88), decode_encode (.b64e 0 16 5), decode_encode (.b64d 0 72 22 16),
    decode_encode .rst⟩

end Sys2Proof
end

section
/-! PROOF. O14: a word with the opcode of a row decodes to the command of that row with the word's own fields, or to `E_FIELD`
where a field the row does not use is not zero; the row's mask and match say the same of the word (30_encoding.md rule R53). -/

namespace Sys2Proof

/-- The fields of a word that the row of a command does not use. -/
def Instr.unusedFields : Instr → Word → List Field
  | .init, w | .rst, w => [aField w, bField w, cField w, dField w]
  | .eks _ _ _, w | .b64e _ _ _, w => [dField w]
  | .ks _ _, w => [bField w, dField w]
  | .ldd _, w => [bField w, cField w, dField w]
  | .enc _, w => [aField w, bField w, cField w]
  | .std _, w => [aField w, cField w, dField w]
  | .b64d _ _ _ _, _ => []

/-- The command of the same row whose operands are the fields of a word. -/
def Instr.withFields : Instr → Word → Instr
  | .init, _ => .init
  | .eks _ _ _, w => .eks (aField w) (bField w) (cField w)
  | .ks _ _, w => .ks (aField w) (cField w)
  | .ldd _, w => .ldd (aField w)
  | .enc _, w => .enc (dField w)
  | .std _, w => .std (bField w)
  | .b64e _ _ _, w => .b64e (aField w) (bField w) (cField w)
  | .b64d _ _ _ _, w => .b64d (aField w) (bField w) (cField w) (dField w)
  | .rst, _ => .rst

theorem rowMatch_withFields (row : Instr) (w : Word) : rowMatch (row.withFields w) = rowMatch row := by
  cases row <;> rfl

open Laws.SelectedByRow in
theorem selectedByRow : ∀ i : Instr, Statement i
  | .init => init
  | .eks a b c => eks a b c
  | .ks a c => ks a c
  | .ldd a => ldd a
  | .enc d => enc d
  | .std b => std b
  | .b64e a b c => b64e a b c
  | .b64d a b c d => b64d a b c d
  | .rst => rst

section
variable {w : Word} {i row : Instr}

/-- The decoder on a word with the opcode of a row. -/
theorem decode_of_opField (h : opField w = opField (rowMatch row)) :
    decode w = requireZero (row.unusedFields w) (row.withFields w) := by
  unfold decode
  rw [h]
  cases row <;> simp [opField, rowMatch, Instr.unusedFields, Instr.withFields]

theorem opField_of_decode (h : decode w = .ok i) : opField w = opField (rowMatch i) :=
  encode_of_decode h ▸ (selectedByRow i).2

/-- The operands of what a word decodes to are the word's own fields. -/
theorem eq_withFields_of_decode (h : decode w = .ok i) : i = i.withFields w :=
  (requireZero_eq_ok.1 (decode_of_opField (opField_of_decode h) ▸ h)).2.symm

/-- Masking a word masks its fields. -/
theorem word_and_eq_iff {m v : Word} : w &&& m = v ↔ opField w &&& opField m = opField v ∧ aField w &&& aField m = aField v ∧
    bField w &&& bField m = bField v ∧ cField w &&& cField m = cField v ∧ dField w &&& dField m = dField v := by
  rw [← pack_inj, ← pack_and, pack_fields, pack_fields, pack_fields]

/-- Mask and match of a row: the row's opcode, and zero in the fields the row does not use. -/
theorem and_rowMask_eq_iff :
    w &&& rowMask row = rowMatch row ↔ opField w = opField (rowMatch row) ∧ ∀ f ∈ row.unusedFields w, f = 0 := by
  have keepOp (x : BitVec 4) : x &&& 15#4 = x := BitVec.and_allOnes
  have keepField (x : Field) : x &&& 127#7 = x := BitVec.and_allOnes
  rw [word_and_eq_iff]
  cases row <;> simp only [rowMask, rowMatch, Instr.unusedFields, List.forall_mem_cons]
  all_goals
    generalize opField w = op, aField w = a, bField w = b, cField w = c, dField w = d
    simp [opField, aField, bField, cField, dField, keepOp, keepField]

end

/-- Settles O14: mask and match are the opcode of the row and zeros in the fields the row does not use, which is what the
decoder checks; the command it answers is made of the word's fields. -/
theorem maskAndMatchSelectRow : Obligations.MaskAndMatchSelectRow := by
  intro w row
  refine ⟨⟨fun h => ?_, fun ⟨i, hi, hrow⟩ => ?_⟩, fun hop h => ?_, fun a b c d h => ?_, fun a b c h => ?_,
    fun a c h => ?_, fun a h => ?_, fun d h => ?_, fun b h => ?_⟩
  · obtain ⟨hop, hz⟩ := and_rowMask_eq_iff.1 h
    exact ⟨row.withFields w, (decode_of_opField hop).trans (requireZero_ok hz), rowMatch_withFields row w⟩
  · have hop : opField w = opField (rowMatch row) := hrow ▸ opField_of_decode hi
    exact and_rowMask_eq_iff.2 ⟨hop, (requireZero_eq_ok.1 (decode_of_opField hop ▸ hi)).1⟩
  · rw [decode_of_opField hop]
    exact requireZero_error fun hz => h (and_rowMask_eq_iff.2 ⟨hop, hz⟩)
  · simpa [Instr.withFields] using eq_withFields_of_decode h
  · obtain h | h := h <;> simpa [Instr.withFields] using eq_withFields_of_decode h
  all_goals simpa [Instr.withFields] using eq_withFields_of_decode h

end Sys2Proof
end

section
/-! PROOF. O15: which words are no command, and what they raise (30_encoding.md rule R55). -/

namespace Sys2Proof

/-- Every opcode that is not listed has a row (30_encoding.md rule R52). -/
theorem exists_row_of_opcode : ∀ op : BitVec 4, op.toNat ∉ [0, 7, 10, 11, 12, 13, 14] →
    ∃ row ∈ [.init, .eks 0 0 0, .ks 0 0, .ldd 0, .enc 0, .std 0, .b64e 0 0 0, .b64d 0 0 0 0, .rst],
      op = opField (rowMatch row) := by
  decide

/-- The decoder answers `E_OPCODE` at the unused opcodes only: a row rejects with `E_FIELD`. -/
theorem decode_eq_error_opcode_iff {w : Word} :
    decode w = .error .opcode ↔ (opField w).toNat ∈ [0, 7, 10, 11, 12, 13, 14] := by
  constructor
  · intro h
    by_contra used
    obtain ⟨row, -, hop⟩ := exists_row_of_opcode _ used
    cases (requireZero_eq_error.1 (decode_of_opField hop ▸ h)).2
  · intro h
    simp only [List.mem_cons, List.not_mem_nil, or_false] at h
    obtain h | h | h | h | h | h | h := h <;> simp only [decode, h]

end Sys2Proof

namespace Sys2Proof.Machine

theorem hostCmd_of_decode_error {w : Word} {s : State} {e : DecodeError} (h : decode w = .error e)
    (hs : s.err = .noError) : hostCmd w s = .next (s.raise (DecodeError.toErr e) w) :=
  (hostCmd_error h s).trans (illegalWord_running hs e w)

/-- Settles O15: the decoder rejects with one of two errors, with `E_OPCODE` exactly at the unused opcodes, and what it
accepts is the word of a command. -/
theorem illegalWordsRaise : Obligations.IllegalWordsRaise := by
  intro w s hs
  refine ⟨fun hop => hostCmd_of_decode_error (decode_eq_error_opcode_iff.2 hop) hs, fun hop noCommand => ?_,
    fun i h => ⟨fun hop => ?_, encode_of_decode h⟩, hostCmd_of_decode_error (e := .opcode) rfl hs,
    hostCmd_of_decode_error (e := .field) rfl hs⟩
  · cases h : decode w with
    | ok i => exact absurd (encode_of_decode h) (noCommand i)
    | error e =>
      cases e with
      | opcode => exact absurd (decode_eq_error_opcode_iff.1 h) hop
      | field => exact hostCmd_of_decode_error h hs
  · cases h.symm.trans (decode_eq_error_opcode_iff.2 hop)

end Sys2Proof.Machine
end

section
/-! PROOF. O16, O1: `HostCmd` of any word answers a next state, by exactly one of the steps of 30_encoding.md rule R51. -/

namespace Sys2Proof.Machine

theorem exists_exec_eq_next (i : Instr) (s : State) : ∃ t, exec i s = .next t := by
  cases hi : commandParts i with
  | none =>
    obtain rfl := commandParts_eq_none.1 hi
    exact ⟨_, exec_rst s⟩
  | some parts =>
    rw [exec_eq_command hi]
    by_cases hs : s.err = .noError
    · exact ⟨_, command_running hs ..⟩
    · exact ⟨_, command_halted hs ..⟩

theorem exists_hostCmd_eq_next (w : Word) (s : State) : ∃ t, hostCmd w s = .next t := by
  cases h : decode w with
  | ok i => exact hostCmd_ok h s ▸ exists_exec_eq_next i s
  | error e =>
    rw [hostCmd_error h]
    by_cases hs : s.err = .noError
    · exact ⟨_, illegalWord_running hs e w⟩
    · exact ⟨_, illegalWord_halted hs e w⟩

/-- A command that passes its checks has operands that are legal in every state. -/
theorem wellFormed_of_check {i : Instr} {check : Block → Err} {effect : State → State} {k : Block}
    (hi : commandParts i = some (check, effect)) (hc : check k = .noError) : i.wellFormed = true := by
  cases i <;> cases hi <;> simp_all [Instr.wellFormed, inBuf]

/-- Settles O16: `HostCmd` answers a next state, so it has one of its four ends; each end is the outcome of one clause, and
the other clauses do not apply to it. -/
theorem everyWordHasOneOutcome : Obligations.EveryWordHasOneOutcome := by
  intro w s
  obtain ⟨t, ht⟩ := exists_hostCmd_eq_next w s
  refine ⟨fun hw => hostCmd_ok (hw ▸ decode_encode .rst) s, ?_⟩
  obtain ⟨rst, -⟩ | ⟨halted, rfl⟩ | ⟨running, error, rfl⟩ | ⟨i, check, effect, hi, parts, running, pass, rfl⟩ :=
    hostCmd_cases ht
  · exact ⟨(absurd rst ·), (absurd rst ·), (absurd rst ·)⟩
  · exact ⟨fun _ _ => ht, fun _ hs => absurd hs halted, fun _ hs => absurd hs halted⟩
  · exact ⟨fun _ hs => absurd running hs, fun _ _ _ => ht, fun _ _ he => absurd he error⟩
  · have noError : errorOf w s.toBlock = .noError :=
      encode_of_decode hi ▸ (errorOf_encode parts s.toBlock).trans pass
    exact ⟨fun _ hs => absurd running hs, fun _ _ he => absurd noError he,
      fun _ _ _ => ⟨i, _, hi, wellFormed_of_check parts pass, hostCmd_ok hi s, hostCmd_ok hi s ▸ ht,
        (effect_err parts s).trans running, effect_ecmd parts s⟩⟩

/-- Settles O1: the step is `HostCmd` of the word, taken off the list. -/
theorem stepRunsDecodedCommand : Obligations.StepRunsDecodedCommand := by
  intro s w rest hp
  have hstep : step s = hostCmd w (s.setPending rest) := step_cons hp
  rw [hstep]
  exact ⟨fun i h => hostCmd_ok h _, fun h hs => hostCmd_of_decode_error h hs, fun h hs => hostCmd_of_decode_error h hs,
    fun e h hs => (hostCmd_error h _).trans (illegalWord_halted (s := s.setPending rest) hs e w)⟩

end Sys2Proof.Machine
end

section
/-! PROOF. O51, O21, O22: `RST` and `INIT`. Their rows use no field, so each opcode has one legal word
(30_encoding.md rule R53). -/

namespace Sys2Proof

/-- What has the opcode of a row and is not the word of that row's command has an unused field that is not zero. -/
theorem decode_eq_error_field {w : Word} {row : Instr} (hop : opField w = opField (rowMatch row))
    (hw : w ≠ encode (row.withFields w)) : decode w = .error .field := by
  have word := decode_of_opField hop
  rw [word]
  exact requireZero_error fun hz => hw (encode_of_decode (word.trans (requireZero_ok hz))).symm

end Sys2Proof

namespace Sys2Proof.Machine

/-- Settles O51: both resets replace the block alone. -/
theorem resetsKeepTheHostsSide : Obligations.ResetsKeepTheHostsSide := fun s =>
  ⟨s.softReset, s.hardReset, exec_rst s, rfl, s.softReset_pending, s.softReset_replies, s.hardReset_pending,
    s.hardReset_replies⟩

/-- Settles O21: the soft reset element by element, and the other words of the opcode by their unused fields. -/
theorem rstMeaning : Obligations.RstMeaning := by
  intro s
  refine ⟨rfl, hostCmd_ok (decode_encode .rst) s, ⟨s.softReset, exec_rst s, ?_⟩, fun w hop hw => ?_⟩
  · simp [Block.zero, Block.status, Phase.code, Err.code]
  · have field : decode w = .error .field := decode_eq_error_field (row := .rst) (BitVec.eq_of_toNat_eq hop) hw
    exact ⟨hostCmd_of_decode_error field,
      fun hs => (hostCmd_error field s).trans (illegalWord_halted hs .field w)⟩

section
variable {s : State}

theorem exec_init_of_uninit (hs : s.err = .noError) (hp : s.phase = .uninit) :
    exec .init s = .next (initEffect s) :=
  (exec_of_wellFormed rfl rfl hs).trans (congrArg _ (if_pos (phaseInit_eq_true.2 hp)))

theorem exec_init_of_ne_uninit (hs : s.err = .noError) (hp : s.phase ≠ .uninit) :
    exec .init s = .next (s.raise .phase (encode .init)) :=
  (exec_of_wellFormed rfl rfl hs).trans (congrArg _ (if_neg (mt phaseInit_eq_true.1 hp)))

end

/-- Settles O22: `INIT` leaves the block in `UNINIT` and not halted, so a second one loads the same tables again. -/
theorem initMeaning : Obligations.InitMeaning := by
  intro s hs
  refine ⟨rfl, fun w hop hw => ?_, exec_init_of_ne_uninit hs, fun hp => ?_⟩
  · exact hostCmd_of_decode_error (decode_eq_error_field (row := .init) (BitVec.eq_of_toNat_eq hop) hw) hs
  · exact ⟨initEffect s, exec_init_of_uninit hs hp, rfl, fun _ => rfl, fun _ => rfl,
      exec_init_of_uninit (s := initEffect s) hs hp⟩

end Sys2Proof.Machine
end

section
/-! PROOF. O39: the words of the initial tables are the digits of π in base 2^32 (40_init.md rule R71). Machin's formula
gives a large multiple of π from two sums of integers. The kernel evaluates the sums once and finds all 1042 words in the
result, with 64 further bits that keep the error away from the words. -/

namespace Sys2Proof.Machine

/-! ## The digits of a number -/

theorem ofDigits_div_pow_mod {b : ℕ} {ds : List ℕ} (hds : ∀ d ∈ ds, d < b) {i : ℕ} (hi : i < ds.length) :
    Nat.ofDigits b ds / b ^ i % b = ds[i] := by
  have digit : ds[i] < b := hds _ (List.getElem_mem hi)
  rw [Nat.ofDigits_div_pow_eq_ofDigits_drop i (Nat.zero_lt_of_lt digit) ds hds, List.drop_eq_getElem_cons hi,
    Nat.ofDigits_cons, Nat.add_mul_mod_self_left, Nat.mod_eq_of_lt digit]

theorem floor_mul_pow_div_pow {x : ℝ} {b k n : ℕ} (hb : 0 < b) (hk : k ≤ n) :
    ⌊x * b ^ n⌋₊ / b ^ (n - k) = ⌊x * b ^ k⌋₊ := by
  have hb' : (b : ℝ) ^ (n - k) ≠ 0 := by positivity
  rw [← Nat.floor_div_natCast, Nat.cast_pow, ← pow_mul_pow_sub (b : ℝ) hk, ← mul_assoc, mul_div_cancel_right₀ _ hb']

/-- If the digits `ds`, most significant first, are those of the floor of `x * b ^ n`, `n` their number, then digit `i` of them
is digit `i` of the fraction `x`. -/
theorem getElem?_eq_digit {x : ℝ} {b : ℕ} {ds : List ℕ} (hds : ∀ d ∈ ds, d < b)
    (hx : ⌊x * b ^ ds.length⌋₊ = Nat.ofDigits b ds.reverse) {i : ℕ} (hi : i < ds.length) :
    ds[i]? = some (⌊x * b ^ (i + 1)⌋₊ % b) := by
  have hb : 0 < b := Nat.zero_lt_of_lt (hds _ (List.getElem_mem hi))
  have hrev : ∀ d ∈ ds.reverse, d < b := fun d hd => hds d (List.mem_reverse.1 hd)
  rw [← floor_mul_pow_div_pow hb hi, hx, ofDigits_div_pow_mod hrev (by rw [List.length_reverse]; omega),
    List.getElem_reverse, List.getElem?_eq_getElem hi]
  congr 2
  omega

/-! ## A multiple of π by Machin's formula -/

/-- `S * π` by integer arithmetic, from `2^d` pairs of terms of each arctangent. -/
def machinSum (S d : ℕ) : ℤ := 16 * arctanSum S 5 d 0 - 4 * arctanSum S 239 d 0

/-- How far `machinSum` can be from `S * π`. -/
def machinError (d : ℕ) : ℕ := 20 * (2 ^ d + 1)

section
variable {S d : ℕ}

/-- With enough terms the tail of the series counts for at most one. -/
theorem arctanSum_bound_of_le {x : ℕ} (hx : 2 ≤ x) (hS : 2 * S ≤ x ^ (4 * 2 ^ d)) :
    |(S : ℝ) * Real.arctan (x : ℝ)⁻¹ - arctanSum S x d 0| ≤ 2 ^ d + 1 := by
  have tail : 2 * (S : ℝ) / x ^ (4 * 2 ^ d) ≤ 1 := div_le_one_of_le₀ (mod_cast hS) (by positivity)
  exact (arctanSum_bound S x d hx).trans (by gcongr)

theorem machinSum_bound (hS : 2 * S ≤ 5 ^ (4 * 2 ^ d)) : |(S : ℝ) * Real.pi - machinSum S d| ≤ machinError d := by
  have five := arctanSum_bound_of_le (by norm_num) hS
  have large := arctanSum_bound_of_le (x := 239) (by norm_num) (hS.trans (by gcongr; norm_num))
  have machin := Real.four_mul_arctan_inv_5_sub_arctan_inv_239
  have scaled : (S : ℝ) * Real.pi = 16 * (S * Real.arctan 5⁻¹) - 4 * (S * Real.arctan 239⁻¹) := by
    rw [← div_mul_cancel₀ Real.pi four_ne_zero, ← machin]
    ring
  rw [scaled]
  simp only [machinSum, machinError]
  push_cast at five large ⊢
  rw [abs_le] at five large ⊢
  constructor <;> linarith

/-- The quotient of `machinSum` by `g` is exact where the error reaches no other multiple of `g`. -/
theorem floor_pi_sub_three_mul {M g T : ℕ} (hg : 0 < g) (hS : 2 * (M * g) ≤ 5 ^ (4 * 2 ^ d))
    (lower : ((3 * M + T) * g + machinError d : ℕ) ≤ machinSum (M * g) d)
    (upper : machinSum (M * g) d + machinError d < ((3 * M + T + 1) * g : ℕ)) : ⌊(Real.pi - 3) * M⌋₊ = T := by
  have hg' : (0 : ℝ) < g := mod_cast hg
  have bound := abs_le.1 (machinSum_bound hS)
  have lower' : (((3 * M + T) * g + machinError d : ℕ) : ℝ) ≤ machinSum (M * g) d := mod_cast lower
  have upper' : (machinSum (M * g) d : ℝ) + machinError d < ((3 * M + T + 1) * g : ℕ) := mod_cast upper
  push_cast at bound lower' upper'
  rw [Nat.floor_eq_iff (mul_nonneg (by linarith [Real.pi_gt_three]) M.cast_nonneg)]
  constructor
  · exact le_of_mul_le_mul_right (by linarith) hg'
  · exact lt_of_mul_lt_mul_right (by linarith) hg'.le

end

/-! ## The words of the tables -/

/-- The words of `P_INIT` followed by `S_INIT` as numbers. -/
def initialWords : List ℕ := (pInit.toList ++ sInit.toList).map BitVec.toNat

theorem length_initialWords : initialWords.length = 1042 := by simp [initialWords]

theorem initialWords_lt : ∀ d ∈ initialWords, d < 2 ^ 32 := by
  rw [initialWords, List.forall_mem_map]
  exact fun w _ => w.isLt

/-- The number whose digits in base `2^32` are the words of the tables, most significant first. -/
def tablesNat : ℕ := Nat.ofDigits (2 ^ 32) initialWords.reverse

/-- The kernel evaluates the two arctangents, to 64 bits more than the tables hold, and compares. -/
theorem machinSum_near_tablesNat :
    (((3 * (2 ^ 32) ^ 1042 + tablesNat) * 2 ^ 64 + machinError 12 : ℕ) : ℤ) ≤ machinSum ((2 ^ 32) ^ 1042 * 2 ^ 64) 12 ∧
      machinSum ((2 ^ 32) ^ 1042 * 2 ^ 64) 12 + machinError 12 <
        ((3 * (2 ^ 32) ^ 1042 + tablesNat + 1) * 2 ^ 64 : ℕ) := by
  decide +kernel

theorem floor_pi_sub_three_eq_tablesNat : ⌊(Real.pi - 3) * ((2 ^ 32 : ℕ) : ℝ) ^ 1042⌋₊ = tablesNat := by
  obtain ⟨lower, upper⟩ := machinSum_near_tablesNat
  rw [← Nat.cast_pow]
  exact floor_pi_sub_three_mul (by norm_num) (by decide +kernel) lower upper

/-- Settles O39: word `n` is digit `n` in base `2^32` of π - 3, since all 1042 words are the digits of its multiple. -/
theorem initialTablesAreDigitsOfPi : Obligations.InitialTablesAreDigitsOfPi := by
  intro n hn
  have digits : ⌊(Real.pi - 3) * ((2 ^ 32 : ℕ) : ℝ) ^ initialWords.length⌋₊ = tablesNat := by
    rw [length_initialWords, floor_pi_sub_three_eq_tablesNat]
  have digit := getElem?_eq_digit initialWords_lt digits (length_initialWords.symm ▸ hn)
  rwa [Nat.cast_pow, ← pow_mul, Nat.cast_ofNat, initialWords, List.getElem?_map] at digit

end Sys2Proof.Machine
end

section
/-! PROOF. O32, O31, O33: the loop of `Encipher` is sixteen rounds one after the other. Each round, and the final step, XORs
one word by a function of the other and swaps, which can be undone; two rounds are one turn of the unrolled form
(41_encipher.md rules R81, R82). -/

namespace Sys2Proof.Machine

/-! ## `Encipher` as its rounds -/

theorem vector_getD_eq_getElem {n i : Nat} (v : Vector Word n) (h : i < n) (x : Word) : v.getD i x = v[i] := by
  simp [Vector.getD, h]

/-- The first `n` rounds of `Encipher`; past `P[17]`, which `Encipher` never reaches, the subkey is 0. -/
def rounds (c : CipherState) : Nat → Word × Word → Word × Word
  | 0 => id
  | n + 1 => cipherRound c.sf (c.p.getD n 0) ∘ rounds c n

/-- `Encipher` after its rounds: the last swap undone and the two output subkeys. -/
def whiten (c : CipherState) (lr : Word × Word) : Word × Word := (lr.2 ^^^ c.p[17], lr.1 ^^^ c.p[16])

theorem rounds_succ (c : CipherState) {n : Nat} (h : n < 18) (lr : Word × Word) :
    rounds c (n + 1) lr = cipherRound c.sf c.p[n] (rounds c n lr) := by
  rw [← vector_getD_eq_getElem c.p h 0]
  rfl

theorem encipher_eq_whiten_rounds (c : CipherState) : encipher c = whiten c ∘ rounds c 16 := by
  funext lr
  refine congrArg (whiten c) (fold_induction (fun n x => x = rounds c n lr) rfl ?_)
  rintro i hi _ rfl
  exact (rounds_succ c (by omega) lr).symm

/-! ## Every round can be undone -/

/-- XORing the left word with `k` and the right word with any function of the result, then swapping, can be undone. -/
theorem feistel_bijective (f : Word → Word) (k : Word) :
    Function.Bijective fun lr : Word × Word => (lr.2 ^^^ f (lr.1 ^^^ k), lr.1 ^^^ k) := by
  refine Function.bijective_iff_has_inverse.2 ⟨fun lr => (lr.2 ^^^ k, lr.1 ^^^ f lr.2), fun lr => ?_, fun lr => ?_⟩ <;>
    simp

theorem rounds_bijective (c : CipherState) (n : Nat) : Function.Bijective (rounds c n) := by
  induction n with
  | zero => exact Function.bijective_id
  | succ n ih => exact (feistel_bijective (roundF c.sf) _).comp ih

theorem whiten_bijective (c : CipherState) : Function.Bijective (whiten c) := feistel_bijective (fun _ => c.p[17]) _

/-- Settles O32: sixteen rounds and the final step, each of which can be undone. -/
theorem encipherIsBijection : Obligations.EncipherIsBijection := fun c =>
  encipher_eq_whiten_rounds c ▸ (whiten_bijective c).comp (rounds_bijective c 16)

/-- Settles O31: the words `L` and `R` are those after each round. -/
theorem encipherRounds : Obligations.EncipherRounds := by
  intro c lr
  refine ⟨fun n => (rounds c n lr).1, fun n => (rounds c n lr).2, rfl, fun i hi => ?_, ?_⟩
  · exact Prod.ext_iff.1 (rounds_succ c (by omega) lr)
  · exact congrFun (encipher_eq_whiten_rounds c) lr

/-! ## The unrolled form -/

/-- The block the unrolled form carries after `k` turns: that of `2k` rounds, the next subkey already in the left word. -/
def unrolledTurns (c : CipherState) (lr : Word × Word) (k : Nat) : Word × Word :=
  ((rounds c (2 * k) lr).1 ^^^ c.p.getD (2 * k) 0, (rounds c (2 * k) lr).2)

/-- A turn of the unrolled form is two rounds. -/
theorem encipherUnrolled_eq_whiten_rounds (c : CipherState) : encipherUnrolled c = whiten c ∘ rounds c 16 := by
  have key {n : Nat} (h : n < 18) : c.p[n] = c.p.getD n 0 := (vector_getD_eq_getElem c.p h 0).symm
  funext lr
  refine Eq.trans (congrArg (fun x : Word × Word => (x.2 ^^^ c.p[17], x.1)) (?_ : _ = unrolledTurns c lr 8)) ?_
  · refine fold_induction (fun k x => x = unrolledTurns c lr k) (by rw [key]; rfl) ?_
    rintro k hk _ rfl
    rw [key, key]
    rfl
  · rw [unrolledTurns, ← key]
    rfl

/-- Settles O33: both forms are the same rounds; the worked value is evaluated. -/
theorem unrolledEncipherAgrees : Obligations.UnrolledEncipherAgrees := by
  refine ⟨fun c lr => ?_, by decide +kernel⟩
  rw [encipher_eq_whiten_rounds, encipherUnrolled_eq_whiten_rounds]

end Sys2Proof.Machine
end

section
/-! PROOF. O30: the bytes of a word as numbers, and the place of a box's entry in the flat view (41_encipher.md rule R80). -/

namespace Sys2Proof.Machine

/-- `S[b][j]` is `SF[256b + j]` (10_state.md rule R11). -/
theorem sbox_eq_getElem (sf : Vector Word 1024) {b : BitVec 2} {j : Byte} {n : Nat} (hn : n < 1024)
    (h : n = 256 * b.toNat + j.toNat) : sbox sf b j = sf[n] := by
  subst h
  simp only [sbox, toNat_append_eq_add, Nat.reducePow]

/-- Settles O30: each byte of the word indexes its own box; the worked value is evaluated. -/
theorem roundFunction : Obligations.RoundFunction := by
  refine ⟨fun sf x x0 x1 x2 x3 hx => ?_, by decide +kernel⟩
  have byte0 : (x.extractLsb' 24 8).toNat = x0 := by rw [BitVec.extractLsb'_toNat, Nat.shiftRight_eq_div_pow]; omega
  have byte1 : (x.extractLsb' 16 8).toNat = x1 := by rw [BitVec.extractLsb'_toNat, Nat.shiftRight_eq_div_pow]; omega
  have byte2 : (x.extractLsb' 8 8).toNat = x2 := by rw [BitVec.extractLsb'_toNat, Nat.shiftRight_eq_div_pow]; omega
  have byte3 : (x.extractLsb' 0 8).toNat = x3 := by rw [BitVec.extractLsb'_toNat, Nat.shiftRight_eq_div_pow]; omega
  rw [roundF, sbox_eq_getElem sf (n := x0) (by omega) (by simp [byte0]),
    sbox_eq_getElem sf (n := 256 + x1) (by omega) (by simp [byte1]),
    sbox_eq_getElem sf (n := 512 + x2) (by omega) (by simp [byte2]),
    sbox_eq_getElem sf (n := 768 + x3) (by omega) (by simp [byte3])]
  simp only [BitVec.toNat_add, BitVec.toNat_xor]

end Sys2Proof.Machine
end

section
/-! PROOF. O25, O26, O27: `LDD`, `ENC` and `STD`. Each checks its phase, then its range (30_encoding.md rule R51), and its
effect is read back word by word or byte by byte. -/

namespace Sys2Proof.Machine

/-! ## The errors of a command in a block that is not halted -/

/-- A word with the opcode of a row and an unused field that is not zero raises `E_FIELD`. -/
theorem hostCmd_of_unused_ne_zero {row : Instr} {w : Word} {s : State} (hs : s.err = .noError)
    (hop : (opField w).toNat = (opField (rowMatch row)).toNat) (h : ∃ f ∈ row.unusedFields w, f ≠ 0) :
    hostCmd w s = .next (s.raise .field w) := by
  have field : decode w = .error .field := by
    rw [decode_of_opField (BitVec.eq_of_toNat_eq hop)]
    exact requireZero_error (by simpa using h)
  exact hostCmd_of_decode_error field hs

section
variable {i : Instr} {okPhase : Block → Bool} {okLen okRange : Bool} {effect : State → State} {s : State}

theorem exec_eq_raise_phase (hi : commandParts i = some (fun k => firstError (okPhase k) okLen okRange, effect))
    (hs : s.err = .noError) (hp : ¬okPhase s.toBlock = true) : exec i s = .next (s.raise .phase (encode i)) := by
  rw [exec_eq_command hi, command_running hs, firstError_eq, if_neg hp, if_neg nofun]

theorem exec_eq_raise_range (hi : commandParts i = some (fun k => firstError (okPhase k) okLen okRange, effect))
    (hs : s.err = .noError) (hp : okPhase s.toBlock = true) (hl : okLen = true) (hr : ¬okRange = true) :
    exec i s = .next (s.raise .range (encode i)) := by
  rw [exec_eq_command hi, command_running hs, firstError_eq, if_pos hp, if_pos hl, if_neg hr, if_neg nofun]

theorem exec_eq_effect (hi : commandParts i = some (fun k => firstError (okPhase k) okLen okRange, effect))
    (hs : s.err = .noError) (hp : okPhase s.toBlock = true) (hl : okLen = true) (hr : okRange = true) :
    exec i s = .next (effect s) := by
  rw [exec_eq_command hi, command_running hs, if_pos (firstError_eq_noError.2 ⟨hp, hl, hr⟩)]

end

theorem regionOk_dataBytes {x : Field} : regionOk x Config.dataBytes = true ↔ x.toNat ≤ 104 := by
  rw [regionOk_eq_true, Config.dataBytes]
  omega

/-! ## The words of `D` and their bytes in `BUF` -/

theorem dWord_eq_getElem (d : Vector Word 6) {i : Nat} (h : i < 6) : dWord d i = d[i] :=
  vector_getD_eq_getElem d h 0

theorem getElem_setPair (d : Vector Word 6) (i : Nat) (lr : Word × Word) {k : Nat} (hk : k < 6) :
    (setPair d i lr)[k] = if i + 1 = k then lr.2 else if i = k then lr.1 else d[k] := by
  simp only [setPair, Vector.getElem_setIfInBounds]

/-- Four bytes a word, the most significant first (00_scope.md rule R8). -/
theorem getD_flatMap_bytesBe (ws : List Word) {i j : Nat} (hi : i < ws.length) (hj : j < 4) :
    (ws.flatMap bytesBe).getD (4 * i + j) 0 = ws[i].extractLsb' (24 - 8 * j) 8 := by
  induction ws generalizing i with
  | nil => exact absurd hi (Nat.not_lt_zero i)
  | cons w ws ih =>
    cases i with
    | zero =>
      obtain rfl | rfl | rfl | rfl : j = 0 ∨ j = 1 ∨ j = 2 ∨ j = 3 := by omega
      all_goals rfl
    | succ i =>
      rw [show 4 * (i + 1) + j = 4 * i + j + 4 by omega]
      exact ih (Nat.lt_of_succ_lt_succ hi)

/-- What `STD` leaves at every address. -/
theorem read_stdEffect {s : State} {b : Field} (h : s.buf.wf = true) (hb : b.toNat ≤ 104) (x : Nat) :
    (stdEffect b s).buf.read x = if b.toNat ≤ x ∧ x < b.toNat + 24 then (s.d.toList.flatMap bytesBe).getD (x - b.toNat) 0
      else s.buf.read x := by
  have len : (s.d.toList.flatMap bytesBe).length = 24 := by rw [length_flatMap_bytesBe, Vector.length_toList]
  rw [← len]
  exact Memory.read_writeBytes h (by rw [len, Config.bufSize]; omega) x

/-! ## The commands -/

/-- Settles O25: the effect reads each word of `D` from its four bytes. -/
theorem lddMeaning : Obligations.LddMeaning := by
  intro s a hs
  refine ⟨?_, fun w hop hf => ?_, fun hp => ?_, fun hp ha => ?_, fun hp ha => ?_⟩
  · exact (pack_toNat 4 a 0 0 0).trans (by simp)
  · exact hostCmd_of_unused_ne_zero (row := .ldd 0) hs hop (by simpa [Instr.unusedFields] using hf)
  · exact exec_eq_raise_phase rfl hs fun h => phaseLdd_eq_true.1 h hp
  · exact exec_eq_raise_range rfl hs (phaseLdd_eq_true.2 hp) rfl (mt regionOk_dataBytes.1 (Nat.not_le.2 ha))
  · refine ⟨lddEffect a s, exec_eq_effect rfl hs (phaseLdd_eq_true.2 hp) rfl (regionOk_dataBytes.2 ha), rfl,
      fun i => ?_⟩
    simp [lddEffect, Memory.readWord]

/-- Settles O26: with an offset up to 4 both words of the pair are words of `D`, so both are read and both are written. -/
theorem encMeaning : Obligations.EncMeaning := by
  intro s d hs
  refine ⟨?_, fun w hop hf => ?_, fun hp => ?_, fun hp => ⟨fun hd => ?_, fun hd => ?_⟩⟩
  · exact (pack_toNat 5 0 0 0 d).trans (by simp)
  · exact hostCmd_of_unused_ne_zero (row := .enc 0) hs hop (by simpa [Instr.unusedFields] using hf)
  · exact exec_eq_raise_phase rfl hs (mt phaseEnc_eq_true.1 hp)
  · exact exec_eq_raise_range rfl hs (phaseEnc_eq_true.2 hp) rfl (mt offsetOk_eq_true.1 (Nat.not_le.2 hd))
  · have left : d.toNat < 6 := by omega
    have right : d.toNat + 1 < 6 := by omega
    refine ⟨encEffect d s, exec_eq_effect rfl hs (phaseEnc_eq_true.2 hp) rfl (offsetOk_eq_true.2 hd), rfl, ?_,
      fun k hl hr => ?_⟩
    · simp [encEffect, getElem_setPair, dWord_eq_getElem, left, right]
    · simp [encEffect, getElem_setPair, hl.symm, hr.symm]

/-- Settles O27: the 24 bytes written are those of the six words, and no other address is written. -/
theorem stdMeaning : Obligations.StdMeaning := by
  intro s b hs hbuf
  refine ⟨?_, fun w hop hf => ?_, fun hp => ?_, fun hp hb => ?_, fun hp hb => ?_⟩
  · exact (pack_toNat 6 0 b 0 0).trans (by simp)
  · exact hostCmd_of_unused_ne_zero (row := .std 0) hs hop (by simpa [Instr.unusedFields] using hf)
  · exact exec_eq_raise_phase rfl hs (mt phaseStd_eq_true.1 hp)
  · exact exec_eq_raise_range rfl hs (phaseStd_eq_true.2 hp) rfl (mt regionOk_dataBytes.1 (Nat.not_le.2 hb))
  · refine ⟨stdEffect b s, exec_eq_effect rfl hs (phaseStd_eq_true.2 hp) rfl (regionOk_dataBytes.2 hb), rfl,
      fun i j => ?_, fun x hx => ?_⟩
    · have place : b.toNat + 4 * i.val + j.val - b.toNat = 4 * i.val + j.val := by omega
      rw [read_stdEffect hbuf hb, if_pos (by omega), place, getD_flatMap_bytesBe _ (by simp) j.isLt]
      simp
    · rw [read_stdEffect hbuf hb, if_neg (by omega)]

end Sys2Proof.Machine
end

section
/-! PROOF. O34, O35: the key stream is read by its index. `StreamWord` takes the bytes at four successive indices, and before
turn `i` of `KeyMix` the position is `4i`, both modulo the length (42_key_schedule.md rules R90, R91). -/

namespace Sys2Proof.Machine

/-! ## Cyclic words -/

theorem cyclicWord_mod (bs : Nat → Byte) (n pos : Nat) : cyclicWord bs n (pos % n) = cyclicWord bs n pos := by
  simp only [cyclicWord, Nat.mod_mod, Nat.mod_add_mod]

/-- Bytes that agree at every position up to the last one read make the same word. -/
theorem cyclicWord_congr {bs bs' : Nat → Byte} {n n' pos : Nat}
    (h : ∀ j, j < pos + 4 → bs (j % n) = bs' (j % n')) : cyclicWord bs n pos = cyclicWord bs' n' pos := by
  simp only [cyclicWord, h pos (by omega), h (pos + 1) (by omega), h (pos + 2) (by omega), h (pos + 3) (by omega)]

theorem Memory.readBytes_ne_nil (m : Memory) (a : Nat) {n : Nat} (hn : 0 < n) : m.readBytes a n ≠ [] :=
  List.ne_nil_of_length_pos (by rwa [m.length_readBytes])

theorem cyclicWord_readBytes (m : Memory) (a : Nat) {n : Nat} (hn : 0 < n) (pos : Nat) :
    cyclicWord (fun j => (m.readBytes a n).getD j 0) n pos = cyclicWord (fun j => m.read (a + j)) n pos :=
  cyclicWord_congr fun j _ => m.getD_readBytes (Nat.mod_lt j hn)

/-! ## `StreamWord` -/

/-- One turn of `StreamWord` appends a byte to those read so far. -/
theorem shiftLeft_or_zeroExtend {w : Nat} (x : BitVec w) (b : Byte) :
    x.zeroExtend 32 <<< 8 ||| b.zeroExtend 32 = (x ++ b).zeroExtend 32 := by
  apply BitVec.eq_of_getLsbD_eq
  intro i hi
  by_cases low : i < 8
  · simp [BitVec.getLsbD_append, low, hi]
  · simp [BitVec.getLsbD_append, low, hi, BitVec.getLsbD_of_ge b i (Nat.not_lt.1 low)]

/-- Settles O34: four turns append four bytes, and a position reduced at every turn is the position reduced once. -/
theorem streamWordIsCyclic : Obligations.StreamWordIsCyclic := by
  intro bs pos h
  have first (b : Byte) : (0 : Word) <<< 8 ||| b.zeroExtend 32 = b.zeroExtend 32 := by simp
  simp only [streamWord, Nat.fold_succ, Nat.fold_zero, first, shiftLeft_or_zeroExtend, Nat.mod_add_mod, Nat.add_assoc,
    Nat.reduceAdd]
  rw [cyclicWord, Nat.mod_eq_of_lt h]
  exact congrArg (·, _) (BitVec.setWidth_eq _)

theorem streamWord_mod {bs : List Byte} (h : bs ≠ []) (pos : Nat) :
    streamWord bs (pos % bs.length) =
      (cyclicWord (fun j => bs.getD j 0) bs.length pos, (pos + 4) % bs.length) := by
  rw [streamWordIsCyclic bs _ (Nat.mod_lt pos (List.length_pos_iff.2 h)), cyclicWord_mod, Nat.mod_add_mod]

/-! ## `KeyMix` -/

/-- What `KeyMix` carries after `n` turns: the first `n` words mixed, and the key position `4n`. -/
def KeyMixed (key : List Byte) (p : Vector Word 18) (n : Nat) (x : Vector Word 18 × Nat) : Prop :=
  x.2 = 4 * n % key.length ∧ ∀ j (hj : j < 18), x.1[j] =
    if j < n then p[j] ^^^ cyclicWord (fun k => key.getD k 0) key.length (4 * j) else p[j]

theorem KeyMixed.turn {key : List Byte} (hkey : key ≠ []) {p : Vector Word 18} {n : Nat} (hn : n < 18)
    {x : Vector Word 18 × Nat} (h : KeyMixed key p n x) : KeyMixed key p (n + 1)
      (x.1.set n (x.1[n] ^^^ (streamWord key x.2).1) hn, (streamWord key x.2).2) := by
  obtain ⟨pos, words⟩ := h
  rw [pos, streamWord_mod hkey]
  refine ⟨rfl, fun j hj => ?_⟩
  rw [Vector.getElem_set]
  obtain rfl | hne := eq_or_ne n j
  · rw [if_pos rfl, if_pos (Nat.lt_succ_self n), words n hn, if_neg (Nat.lt_irrefl n)]
  · rw [if_neg hne, words j hj]
    exact if_congr (by omega) rfl rfl

/-- Settles O35: after eighteen turns every word is mixed. -/
theorem keyMixByIndex : Obligations.KeyMixByIndex := by
  intro key p hkey i
  have start : KeyMixed key p 0 (p, 0) := ⟨(Nat.zero_mod _).symm, fun _ _ => rfl⟩
  have mixed := fold_induction (KeyMixed key p) start fun _ hn _ h => h.turn hkey hn
  exact (mixed.2 i i.isLt).trans (if_pos i.isLt)

end Sys2Proof.Machine
end

section
/-! PROOF. O23, O24, O37: `KS` and `EKS`. A schedule is its 521 turns; each turn of either enciphers a block and writes the
result over the next pair, and they differ in the block alone (42_key_schedule.md rules R92, R94). -/

namespace Sys2Proof.Machine

/-! ## The turns of both schedules -/

theorem turns_zero (turn : (CipherState → Word × Word → CipherState) → Filling → Filling) (start : Filling) :
    turns turn start 0 = start := rfl

/-- Which pair a turn writes depends on its number alone. -/
theorem turns_succ {n : Nat} (h : n < 521) : ∃ write, ∀ turn start,
    turns turn start (n + 1) = turn write (turns turn start n) := by
  by_cases hp : n < 9
  · exact ⟨writeP n hp, fun turn start => turns_succ_of_lt turn start hp⟩
  · obtain ⟨m, rfl⟩ := Nat.exists_eq_add_of_le' (Nat.not_lt.1 hp)
    exact ⟨writeS m (by omega), fun turn start => turns_succ_of_ge turn start (by omega)⟩

theorem startFilling_sf (key : List Byte) (c : CipherState) : (startFilling key c).cipher.sf = c.sf := by
  rw [startFilling]

section
variable {turn : (CipherState → Word × Word → CipherState) → Filling → Filling} (start : Filling)
  (written : ∀ write x, (turn write x).cipher = write x.cipher (turn write x).lr)
include written

theorem turns_cipher_of_lt {n : Nat} (h : n < 9) : (turns turn start (n + 1)).cipher =
    writeP n h (turns turn start n).cipher (turns turn start (n + 1)).lr := by
  rw [turns_succ_of_lt turn start h, written]

theorem turns_cipher_of_ge {n : Nat} (h : n < 512) : (turns turn start (n + 10)).cipher =
    writeS n h (turns turn start (n + 9)).cipher (turns turn start (n + 10)).lr := by
  rw [turns_succ_of_ge turn start h, written]

end

theorem turns_fillPlain_lr (start : Filling) {n : Nat} (h : n < 521) : (turns fillPlain start (n + 1)).lr =
    encipher (turns fillPlain start n).cipher (turns fillPlain start n).lr := by
  obtain ⟨write, turn⟩ := turns_succ h
  rw [turn, fillPlain]

/-! ## The salt -/

/-- Word `k` of the salt of 16 bytes, read cyclically: after word 3 comes word 0 (42_key_schedule.md rule R94). -/
def saltWord (salt : List Byte) (k : Nat) : Word := cyclicWord (fun j => salt.getD j 0) 16 (4 * k)

theorem saltWord_mod (salt : List Byte) (k : Nat) : saltWord salt (k % 4) = saltWord salt k := by
  rw [saltWord, ← Nat.mul_mod_mul_left, cyclicWord_mod, saltWord]

theorem saltWord_readBytes (m : Memory) (b : Nat) {k : Nat} (h : k < 4) :
    saltWord (m.readBytes b 16) k = be32 (m.read (b + 4 * k)) (m.read (b + 4 * k + 1)) (m.read (b + 4 * k + 2))
      (m.read (b + 4 * k + 3)) := by
  rw [saltWord, cyclicWord_readBytes m b (by decide), cyclicWord]
  simp only [Nat.mod_eq_of_lt (show 4 * k < 16 by omega), Nat.mod_eq_of_lt (show 4 * k + 1 < 16 by omega),
    Nat.mod_eq_of_lt (show 4 * k + 2 < 16 by omega), Nat.mod_eq_of_lt (show 4 * k + 3 < 16 by omega), Nat.add_assoc]

theorem saltWord_eq_zero {m : Memory} {b : Nat} (h : ∀ j, j < 16 → m.read (b + j) = 0) (k : Nat) :
    saltWord (m.readBytes b 16) k = 0 := by
  rw [saltWord, cyclicWord_readBytes m b (by decide)]
  simp only [cyclicWord, h _ (Nat.mod_lt _ (by decide : 0 < 16))]
  rfl

/-- Turn `n` of `EKS` is a turn of `KS` on the block with the salt words `2n` and `2n + 1` XORed in. -/
theorem fillSalted_eq_fillPlain {salt : List Byte} (hs : salt.length = 16) {n : Nat} {x : Filling}
    (hx : x.sp = 8 * n % 16) (write : CipherState → Word × Word → CipherState) : fillSalted salt write x =
      fillPlain write { x with
        lr := (x.lr.1 ^^^ saltWord salt (2 * n), x.lr.2 ^^^ saltWord salt (2 * n + 1)), sp := 8 * (n + 1) % 16 } := by
  have hne : salt ≠ [] := List.ne_nil_of_length_pos (by omega)
  have left := streamWord_mod hne (4 * (2 * n))
  have right := streamWord_mod hne (4 * (2 * n + 1))
  have next : 4 * (2 * n) + 4 = 4 * (2 * n + 1) := by omega
  rw [hs] at left right
  rw [show 8 * n = 4 * (2 * n) by omega] at hx
  simp only [fillSalted, fillPlain, saltWord, hx, left, next, right]
  rw [show 8 * (n + 1) = 4 * (2 * n + 1) + 4 by omega]

section
variable {salt : List Byte} (hs : salt.length = 16) {start : Filling} (h0 : start.sp = 0)
include hs h0

theorem turns_fillSalted_sp {n : Nat} (h : n ≤ 521) : (turns (fillSalted salt) start n).sp = 8 * n % 16 := by
  induction n with
  | zero => exact h0
  | succ n ih =>
    obtain ⟨write, turn⟩ := turns_succ h
    rw [turn, fillSalted_eq_fillPlain hs (ih (Nat.le_of_lt h)), fillPlain]

theorem turns_fillSalted_lr {n : Nat} (h : n < 521) : (turns (fillSalted salt) start (n + 1)).lr =
    encipher (turns (fillSalted salt) start n).cipher
      ((turns (fillSalted salt) start n).lr.1 ^^^ saltWord salt (2 * n % 4),
        (turns (fillSalted salt) start n).lr.2 ^^^ saltWord salt ((2 * n + 1) % 4)) := by
  obtain ⟨write, turn⟩ := turns_succ h
  rw [turn, fillSalted_eq_fillPlain hs (turns_fillSalted_sp hs h0 (Nat.le_of_lt h)), fillPlain, saltWord_mod,
    saltWord_mod]

/-- With a salt of zero words the turns differ in the salt position alone. -/
theorem turns_fillSalted_of_zero (zero : ∀ k, saltWord salt k = 0) {n : Nat} (h : n ≤ 521) :
    turns (fillSalted salt) start n = { turns fillPlain start n with sp := 8 * n % 16 } := by
  induction n with
  | zero => rw [turns_zero, turns_zero, Nat.mul_zero, Nat.zero_mod, ← h0]
  | succ n ih =>
    obtain ⟨write, turn⟩ := turns_succ h
    have sp := turns_fillSalted_sp hs h0 (Nat.le_of_lt h)
    rw [turn, turn, fillSalted_eq_fillPlain hs sp, ih (Nat.le_of_lt h), zero, zero]
    simp only [BitVec.ofNat_eq_ofNat, BitVec.xor_zero, fillPlain]

end

/-! ## The commands -/

theorem keyMix_readBytes (m : Memory) (a : Nat) {n : Nat} (hn : 1 ≤ n) (p : Vector Word 18) (i : Fin 18) :
    (keyMix (m.readBytes a n) p)[i] = p[i] ^^^ cyclicWord (fun j => m.read (a + j)) n (4 * i.val) := by
  rw [keyMixByIndex _ p (m.readBytes_ne_nil a hn), m.length_readBytes, cyclicWord_readBytes m a hn]

theorem exec_eq_raise_len {i : Instr} {okPhase : Block → Bool} {okLen okRange : Bool} {effect : State → State} {s : State}
    (hi : commandParts i = some (fun k => firstError (okPhase k) okLen okRange, effect)) (hs : s.err = .noError)
    (hp : okPhase s.toBlock = true) (hl : ¬okLen = true) : exec i s = .next (s.raise .len (encode i)) := by
  rw [exec_eq_command hi, command_running hs, firstError_eq, if_pos hp, if_neg hl, if_neg nofun]

theorem State.setCipher_setPhase_eq (s : State) (c : CipherState) (p : Phase) :
    (s.setCipher c).setPhase p = { s with cipher := c, phase := p } := rfl

/-- The turns of `KS a, c`. -/
def ksTurns (s : State) (a c : Field) : Nat → Filling :=
  turns fillPlain (startFilling (s.buf.readBytes a.toNat c.toNat) s.cipher)

/-- The turns of `EKS a, b, c`. -/
def eksTurns (s : State) (a b c : Field) : Nat → Filling :=
  turns (fillSalted (s.buf.readBytes b.toNat 16)) (startFilling (s.buf.readBytes a.toNat c.toNat) s.cipher)

section
variable {s : State} {a b c : Field} (hs : s.err = .noError)
include hs

theorem exec_ks_eq_next (hp : (s.phase = .uninit ∧ s.loaded = true) ∨ s.phase = .keysched) (hc : 1 ≤ c.toNat)
    (ha : a.toNat + c.toNat ≤ 128) :
    exec (.ks a c) s = .next { s with cipher := (ksTurns s a c 521).cipher, phase := .keysched } := by
  rw [exec_eq_effect rfl hs (phaseKs_eq_true.2 hp) (lenOk_eq_true.2 hc) (regionOk_eq_true.2 ha), ksEffect,
    keySchedule_eq_turns, State.setCipher_setPhase_eq, ksTurns]

theorem exec_eks_eq_next (hp : s.phase = .uninit) (hl : s.loaded = true) (hc : 1 ≤ c.toNat)
    (ha : a.toNat + c.toNat ≤ 128) (hb : b.toNat + 16 ≤ 128) :
    exec (.eks a b c) s = .next { s with cipher := (eksTurns s a b c 521).cipher, phase := .keysched } := by
  rw [exec_eq_effect rfl hs (phaseEks_eq_true.2 ⟨hp, hl⟩) (lenOk_eq_true.2 hc)
    (Bool.and_eq_true_iff.2 ⟨regionOk_eq_true.2 ha, regionOk_eq_true.2 hb⟩), eksEffect, enhancedKeySchedule_eq_turns,
    State.setCipher_setPhase_eq, eksTurns]

end

/-- Settles O23: `C n` and `B n` are what turn `n` leaves. -/
theorem ksMeaning : Obligations.KsMeaning := by
  intro s a c hs
  refine ⟨?_, fun w hop hf => ?_, fun hp => ?_, fun hp => ⟨fun hc => ?_, fun hc ha => ?_, fun hc ha => ?_⟩⟩
  · exact (pack_toNat 3 a 0 c 0).trans (by simp)
  · exact hostCmd_of_unused_ne_zero (row := .ks 0 0) hs hop (by simpa [Instr.unusedFields] using hf)
  · exact exec_eq_raise_phase rfl hs (mt phaseKs_eq_true.1 hp)
  · exact exec_eq_raise_len rfl hs (phaseKs_eq_true.2 hp) (mt lenOk_eq_true.1 (by omega))
  · exact exec_eq_raise_range rfl hs (phaseKs_eq_true.2 hp) (lenOk_eq_true.2 hc)
      (mt regionOk_eq_true.1 (Nat.not_le.2 ha))
  · exact ⟨fun n => (ksTurns s a c n).cipher, fun n => (ksTurns s a c n).lr, exec_ks_eq_next hs hp hc ha,
      keyMix_readBytes s.buf a.toNat hc s.cipher.p, startFilling_sf _ s.cipher, rfl, fun n => turns_fillPlain_lr _,
      fun n => turns_cipher_of_lt _ fun _ _ => rfl, fun n => turns_cipher_of_ge _ fun _ _ => rfl⟩

/-- Settles O24: as for `KS`, with the salt words turn by turn. -/
theorem eksMeaning : Obligations.EksMeaning := by
  intro s a b c hs
  refine ⟨?_, fun w hop hf => ?_, fun hp => ?_, fun hp hl => ⟨fun hc => ?_, fun hc hr => ?_, fun hc ha hb => ?_⟩⟩
  · exact (pack_toNat 2 a b c 0).trans (by simp)
  · exact hostCmd_of_unused_ne_zero (row := .eks 0 0 0) hs hop (by simpa [Instr.unusedFields] using hf)
  · exact exec_eq_raise_phase rfl hs (mt phaseEks_eq_true.1 hp)
  · exact exec_eq_raise_len rfl hs (phaseEks_eq_true.2 ⟨hp, hl⟩) (mt lenOk_eq_true.1 (by omega))
  · refine exec_eq_raise_range rfl hs (phaseEks_eq_true.2 ⟨hp, hl⟩) (lenOk_eq_true.2 hc) fun ok => ?_
    obtain ⟨inA, inB⟩ := Bool.and_eq_true_iff.1 ok
    exact hr.elim (Nat.not_lt.2 (regionOk_eq_true.1 inA)) (Nat.not_lt.2 (regionOk_eq_true.1 inB))
  · exact ⟨fun n => (eksTurns s a b c n).cipher, fun n => (eksTurns s a b c n).lr,
      saltWord (s.buf.readBytes b.toNat 16), exec_eks_eq_next hs hp hl hc ha hb,
      fun k => saltWord_readBytes s.buf b.toNat, keyMix_readBytes s.buf a.toNat hc s.cipher.p,
      startFilling_sf _ s.cipher, rfl, fun n => turns_fillSalted_lr (s.buf.length_readBytes b.toNat 16) rfl,
      fun n => turns_cipher_of_lt _ fun _ _ => rfl, fun n => turns_cipher_of_ge _ fun _ _ => rfl⟩

/-- Settles O37: a salt of zero bytes has zero words. -/
theorem zeroSaltEksEqualsKs : Obligations.ZeroSaltEksEqualsKs := by
  intro s a b c hs hp hl hc ha hb zero
  refine ⟨_, ?_, exec_ks_eq_next hs (.inl ⟨hp, hl⟩) hc ha, rfl⟩
  rw [exec_eks_eq_next hs hp hl hc ha hb, eksTurns, ksTurns,
    turns_fillSalted_of_zero (s.buf.length_readBytes b.toNat 16) rfl (saltWord_eq_zero zero) (Nat.le_refl 521)]

end Sys2Proof.Machine
end

section
/-! PROOF. O36: `KeyMix` reads the key at indices 0 to 71 modulo its length, and the schedules see the key through `KeyMix`
alone (42_key_schedule.md rule R93). -/

namespace Sys2Proof.Machine

/-- Two keys are interchangeable for the schedules when they give the same 72 bytes. -/
theorem startFilling_congr {key key' : List Byte} (hkey : key ≠ []) (hkey' : key' ≠ [])
    (h : ∀ j, j < 72 → key.getD (j % key.length) 0 = key'.getD (j % key'.length) 0) (c : CipherState) :
    startFilling key c = startFilling key' c := by
  have mix : keyMix key c.p = keyMix key' c.p := by
    refine Vector.ext fun i hi => ?_
    have word := cyclicWord_congr (bs := fun j => key.getD j 0) (bs' := fun j => key'.getD j 0) (pos := 4 * i)
      fun j hj => h j (by omega)
    have left := keyMixByIndex key c.p hkey ⟨i, hi⟩
    rw [word, ← keyMixByIndex key' c.p hkey' ⟨i, hi⟩] at left
    exact left
  rw [startFilling, mix, startFilling]

theorem startFilling_readBytes_congr {m m' : Memory} {a a' n n' : Nat} (hn : 72 ≤ n) (hn' : 72 ≤ n')
    (h : ∀ j, j < 72 → m.read (a + j) = m'.read (a' + j)) (c : CipherState) :
    startFilling (m.readBytes a n) c = startFilling (m'.readBytes a' n') c := by
  refine startFilling_congr (m.readBytes_ne_nil a (by omega)) (m'.readBytes_ne_nil a' (by omega)) (fun j hj => ?_) c
  have hjn : j < n := by omega
  have hjn' : j < n' := by omega
  rw [m.length_readBytes, m'.length_readBytes, Nat.mod_eq_of_lt hjn, Nat.mod_eq_of_lt hjn', m.getD_readBytes hjn,
    m'.getD_readBytes hjn', h j hj]

theorem startFilling_append_self {key : List Byte} (hkey : key ≠ []) (c : CipherState) :
    startFilling key c = startFilling (key ++ key) c := by
  refine startFilling_congr hkey (List.append_ne_nil_of_left_ne_nil hkey key) (fun j _ => ?_) c
  have twice : (key ++ key).length = key.length * 2 := by rw [List.length_append, Nat.mul_two]
  have pos : 0 < key.length := List.length_pos_iff.2 hkey
  have hj : j % (key.length * 2) < key.length * 2 := Nat.mod_lt j (by omega)
  rw [twice, ← Nat.mod_mul_right_mod j key.length 2]
  obtain first | second := Nat.lt_or_ge (j % (key.length * 2)) key.length
  · rw [List.getD_append _ _ _ _ first, Nat.mod_eq_of_lt first]
  · rw [List.getD_append_right _ _ _ _ second, Nat.mod_eq_sub_mod second, Nat.mod_eq_of_lt (by omega)]

theorem Memory.readBytes_congr {m m' : Memory} {a a' n : Nat} (h : ∀ j, j < n → m.read (a + j) = m'.read (a' + j)) :
    m.readBytes a n = m'.readBytes a' n :=
  List.map_congr_left fun j hj => h j (List.mem_range.1 hj)

/-- Settles O36: the schedules start alike, and for `EKS` with the same salt. -/
theorem keyBytesBeyond72Unused : Obligations.KeyBytesBeyond72Unused := by
  refine ⟨fun s s' a a' c c' hs hs' hcipher hc hc' ha ha' hkey => ?_, fun key salt c hkey => ?_⟩
  · have start := startFilling_readBytes_congr hc hc' hkey s.cipher
    refine ⟨fun hp hp' => ?_, fun b b' hp hl hp' hl' hb hb' hsalt => ?_⟩
    · refine ⟨_, _, exec_ks_eq_next hs hp (by omega) ha, exec_ks_eq_next hs' hp' (by omega) ha', ?_, rfl, rfl⟩
      simp only [ksTurns, ← hcipher, start]
    · refine ⟨_, _, exec_eks_eq_next hs hp hl (by omega) ha hb, exec_eks_eq_next hs' hp' hl' (by omega) ha' hb', ?_,
        rfl, rfl⟩
      simp only [eksTurns, ← hcipher, start, Memory.readBytes_congr hsalt]
  · simp only [keySchedule_eq_turns, enhancedKeySchedule_eq_turns, ← startFilling_append_self hkey, and_self]

end Sys2Proof.Machine
end

section
/-! PROOF. Bit strings, most significant bit first: how 43_base64.md rules R103 and R107 read a string of bytes or symbols. The
bits of a concatenation are a concatenation of bits, so cutting and joining pieces of a string leaves its bits in place. -/

namespace Sys2Proof.Machine

/-- The bits of a value, most significant first. -/
def msbBits {w : Nat} (x : BitVec w) : List Bool := List.ofFn fun i : Fin w => x.getMsbD i

/-- The bits of a string of values, first value first. -/
def bitString {w : Nat} (xs : List (BitVec w)) : List Bool := xs.flatMap msbBits

@[simp] theorem length_msbBits {w : Nat} (x : BitVec w) : (msbBits x).length = w := List.length_ofFn

theorem getElem?_msbBits {w : Nat} (x : BitVec w) {i : Nat} (h : i < w) : (msbBits x)[i]? = some (x.getMsbD i) := by
  simp [msbBits, h]

theorem msbBits_append {l k : Nat} (x : BitVec l) (y : BitVec k) : msbBits (x ++ y) = msbBits x ++ msbBits y := by
  refine List.ext_getElem (by simp) fun i _ _ => ?_
  simp only [msbBits, List.getElem_append, List.getElem_ofFn, List.length_ofFn, BitVec.getMsbD_append]
  by_cases h : i < l
  · rw [dif_pos h, if_neg (Nat.not_le.2 h)]
  · rw [dif_neg h, if_pos (Nat.not_lt.1 h)]

/-- A value cut in two is the concatenation of its pieces. -/
theorem extractLsb'_append_extractLsb'_eq_self {l k : Nat} (x : BitVec (l + k)) :
    x.extractLsb' k l ++ x.extractLsb' 0 k = x := by
  rw [BitVec.extractLsb'_append_extractLsb'_eq_extractLsb' (Nat.zero_add k).symm, BitVec.extractLsb'_eq_self]

theorem msbBits_eq_append (l k : Nat) (x : BitVec (l + k)) :
    msbBits x = msbBits (x.extractLsb' k l) ++ msbBits (x.extractLsb' 0 k) := by
  rw [← msbBits_append, extractLsb'_append_extractLsb'_eq_self]

@[simp] theorem bitString_nil {w : Nat} : bitString ([] : List (BitVec w)) = [] := rfl

@[simp] theorem bitString_cons {w : Nat} (x : BitVec w) (xs : List (BitVec w)) :
    bitString (x :: xs) = msbBits x ++ bitString xs := rfl

@[simp] theorem length_bitString {w : Nat} (xs : List (BitVec w)) : (bitString xs).length = w * xs.length := by
  simp [bitString, List.length_flatMap, Nat.mul_comm]

/-- Bit `i` of value `j`. -/
theorem getElem?_bitString {w : Nat} (xs : List (BitVec w)) (j : Nat) {i : Nat} (h : i < w) :
    (bitString xs)[w * j + i]? = (xs[j]?).map (·.getMsbD i) := by
  induction xs generalizing j with
  | nil => rfl
  | cons x xs ih =>
    rw [bitString_cons]
    cases j with
    | zero =>
      rw [Nat.mul_zero, Nat.zero_add, List.getElem?_append_left (by simpa using h), getElem?_msbBits x h]
      rfl
    | succ j =>
      have past : w * (j + 1) + i = w + (w * j + i) := by rw [Nat.mul_succ]; omega
      rw [past, List.getElem?_append_right (by simp), length_msbBits, Nat.add_sub_cancel_left, ih,
        List.getElem?_cons_succ]

/-- Bit `k` of the whole string. -/
theorem getElem?_bitString_div {w : Nat} (hw : 0 < w) (xs : List (BitVec w)) (k : Nat) :
    (bitString xs)[k]? = (xs[k / w]?).map (·.getMsbD (k % w)) := by
  rw [← getElem?_bitString xs (k / w) (Nat.mod_lt k hw), Nat.div_add_mod]

end Sys2Proof.Machine
end

section
/-! PROOF. O40: the alphabet (43_base64.md rules R101, R102), 64 symbols and 256 bytes. -/

namespace Sys2Proof.Machine

theorem charSym_symChar : ∀ v : Sym, charSym (symChar v) = some v := by decide

theorem symChar_of_mem_charSym : ∀ ch : Byte, ∀ v ∈ charSym ch, symChar v = ch := by decide

/-- Settles O40, by going through all symbols and all bytes. -/
theorem alphabetRoundTrip : Obligations.AlphabetRoundTrip :=
  ⟨charSym_symChar, symChar_of_mem_charSym, by decide, by decide⟩

end Sys2Proof.Machine
end

section
/-! PROOF. O41, O42: `Encode` chunk by chunk and as a bit string cut in sixes (43_base64.md rule R103). -/

namespace Sys2Proof.Machine

/-! ## Chunks -/

/-- The symbols from the `q`-th chunk on are those of the bytes from the `q`-th chunk on. -/
theorem drop_b64Encode (bs : List Byte) (q : Nat) : (b64Encode bs).drop (4 * q) = b64Encode (bs.drop (3 * q)) := by
  induction bs using b64Encode.induct generalizing q with
  | case1 b0 b1 b2 rest ih =>
    cases q with
    | zero => rfl
    | succ q => exact ih q
  | case2 | case3 | case4 => cases q <;> rfl

theorem drop_eq_cons {bs : List Byte} {b : Nat → Byte} (hb : ∀ k, k < bs.length → bs[k]? = some (b k)) {k : Nat}
    (h : k < bs.length) : bs.drop k = b k :: bs.drop (k + 1) := by
  rw [List.drop_eq_getElem_cons h, Option.some.inj ((List.getElem?_eq_getElem h).symm.trans (hb k h))]

/-- Settles O41: the symbols of a chunk are the first ones of `Encode` of the bytes from that chunk on. -/
theorem encodeByChunks : Obligations.EncodeByChunks := by
  intro bs b s _ hb hs
  have len : (b64Encode bs).length = (4 * bs.length + 2) / 3 := length_b64Encode bs
  have symbol {q : Nat} {chunk : List Byte} (hq : bs.drop (3 * q) = chunk) (r : Nat)
      (hr : 4 * q + r < (4 * bs.length + 2) / 3) {v : Sym} (hv : (b64Encode chunk)[r]? = some v) :
      s (4 * q + r) = v := by
    rw [← hq, ← drop_b64Encode, List.getElem?_drop, hs _ (by rwa [len])] at hv
    exact Option.some.inj hv
  refine ⟨len, fun q hq => ?_, fun q hq => ?_, fun q hq => ?_⟩
  · have chunk : bs.drop (3 * q) = b (3 * q) :: b (3 * q + 1) :: b (3 * q + 2) :: bs.drop (3 * q + 3) := by
      rw [drop_eq_cons hb (by omega), drop_eq_cons hb (by omega), drop_eq_cons hb hq]
    exact ⟨symbol chunk 0 (by omega) rfl, symbol chunk 1 (by omega) rfl, symbol chunk 2 (by omega) rfl,
      symbol chunk 3 (by omega) rfl⟩
  · have chunk : bs.drop (3 * q) = [b (3 * q)] := by
      rw [drop_eq_cons hb (by omega), List.drop_eq_nil_of_le hq.le]
    exact ⟨symbol chunk 0 (by omega) rfl, symbol chunk 1 (by omega) rfl⟩
  · have chunk : bs.drop (3 * q) = [b (3 * q), b (3 * q + 1)] := by
      rw [drop_eq_cons hb (by omega), drop_eq_cons hb (by omega), List.drop_eq_nil_of_le hq.le]
    exact ⟨symbol chunk 0 (by omega) rfl, symbol chunk 1 (by omega) rfl, symbol chunk 2 (by omega) rfl⟩

/-! ## Bits -/

/-- `Encode` keeps the bits of its input in order and adds zero bits at the end only. -/
theorem bitString_b64Encode (bs : List Byte) :
    ∃ n, bitString (b64Encode bs) = bitString bs ++ List.replicate n false := by
  fun_induction b64Encode bs with
  | case1 b0 b1 b2 rest ih =>
    obtain ⟨n, ih⟩ := ih
    refine ⟨n, ?_⟩
    simp only [bitString_cons, msbBits_append, ih, msbBits_eq_append 6 2 b0, msbBits_eq_append 4 4 b1,
      msbBits_eq_append 2 6 b2, List.append_assoc]
  | case2 b0 b1 =>
    refine ⟨2, ?_⟩
    simp only [bitString_cons, bitString_nil, msbBits_append, msbBits_eq_append 6 2 b0, msbBits_eq_append 4 4 b1,
      List.append_assoc]
    rfl
  | case3 b0 =>
    refine ⟨4, ?_⟩
    simp only [bitString_cons, bitString_nil, msbBits_append, msbBits_eq_append 6 2 b0, List.append_assoc]
    rfl
  | case4 => exact ⟨0, rfl⟩

theorem getElem?_append_replicate {α : Type} {l : List α} {n k : Nat} (h : k < l.length + n) (x : α) :
    (l ++ List.replicate n x)[k]? = some ((l[k]?).getD x) := by
  by_cases inside : k < l.length
  · rw [List.getElem?_append_left inside, List.getElem?_eq_getElem inside, Option.getD_some]
  · have past : l.length ≤ k := Nat.not_lt.1 inside
    rw [List.getElem?_append_right past, List.getElem?_replicate, if_pos (by omega), List.getElem?_eq_none past,
      Option.getD_none]

/-- Settles O42: the bits of the symbols are the bits of the bytes, then zeros. -/
theorem encodeIsCutBitString : Obligations.EncodeIsCutBitString := by
  intro bs _
  have len : (b64Encode bs).length = (4 * bs.length + 2) / 3 := length_b64Encode bs
  refine ⟨len, fun j hj i hi => ?_⟩
  obtain ⟨n, hn⟩ := bitString_b64Encode bs
  have count : 6 * (b64Encode bs).length = (bitString bs).length + n := by simpa using congrArg List.length hn
  rw [← getElem?_bitString _ j hi, hn, ← getElem?_bitString_div (by decide),
    getElem?_append_replicate (by omega)]

end Sys2Proof.Machine
end

section
/-! PROOF. O43: `Decode` first takes the symbols up to the first invalid character, then joins them in groups of four, and
stops at its limit (43_base64.md rules R106, R107). So the bit string of its result begins that of those symbols. -/

namespace Sys2Proof.Machine

/-! ## The characters up to the first invalid one -/

/-- The symbols of the valid characters that `cs` begins with (43_base64.md rule R107). -/
def validSyms : List Byte → List Sym
  | [] => []
  | ch :: cs =>
    match charSym ch with
    | some v => v :: validSyms cs
    | none => []

@[simp] theorem validSyms_nil : validSyms [] = [] := rfl

@[simp] theorem validSyms_cons_of_some {ch : Byte} {v : Sym} (h : charSym ch = some v) (cs : List Byte) :
    validSyms (ch :: cs) = v :: validSyms cs := by
  rw [validSyms, h]

@[simp] theorem validSyms_cons_of_none {ch : Byte} (h : charSym ch = none) (cs : List Byte) :
    validSyms (ch :: cs) = [] := by
  rw [validSyms, h]

theorem length_validSyms_le (cs : List Byte) : (validSyms cs).length ≤ cs.length := by
  induction cs with
  | nil => exact Nat.le_refl 0
  | cons ch cs ih =>
    cases h : charSym ch with
    | none => simp [h]
    | some v => simpa [h] using ih

theorem getElem?_validSyms {cs : List Byte} {j : Nat} (h : j < (validSyms cs).length) :
    (validSyms cs)[j]? = cs[j]?.bind charSym := by
  induction cs generalizing j with
  | nil => rfl
  | cons ch cs ih =>
    cases hv : charSym ch with
    | none => simp [hv] at h
    | some v =>
      cases j with
      | zero => simp [hv]
      | succ j => simpa [hv] using ih (by simpa [hv] using h)

theorem length_validSyms_eq {cs : List Byte} {v : Nat}
    (valid : ∀ j, j < v → ∃ ch, cs[j]? = some ch ∧ charSym ch ≠ none)
    (ends : ∀ ch, cs[v]? = some ch → charSym ch = none) : (validSyms cs).length = v := by
  induction v generalizing cs with
  | zero =>
    cases cs with
    | nil => rfl
    | cons ch cs => simp [ends ch rfl]
  | succ v ih =>
    obtain ⟨ch, hch, hvalid⟩ := valid 0 (Nat.zero_lt_succ v)
    obtain ⟨x, hx⟩ := Option.ne_none_iff_exists'.1 hvalid
    cases cs with
    | nil => cases hch
    | cons ch' cs =>
      obtain rfl : ch' = ch := by simpa using hch
      simpa [hx] using ih (fun j hj => valid (j + 1) (Nat.succ_lt_succ hj)) ends

theorem validSyms_map_symChar (vs : List Sym) : validSyms (vs.map symChar) = vs := by
  induction vs with
  | nil => rfl
  | cons v vs ih => simp [charSym_symChar, ih]

/-! ## Joining symbols into bytes -/

/-- The bytes of a string of symbols: three for a group of four, two for a last group of three and one for a last group of
two. -/
def decodeSyms : List Sym → List Byte
  | v1 :: v2 :: v3 :: v4 :: rest =>
    (v1 ++ v2.extractLsb' 4 2) :: (v2.extractLsb' 0 4 ++ v3.extractLsb' 2 4) :: (v3.extractLsb' 0 2 ++ v4) ::
      decodeSyms rest
  | [v1, v2, v3] => [v1 ++ v2.extractLsb' 4 2, v2.extractLsb' 0 4 ++ v3.extractLsb' 2 4]
  | [v1, v2] => [v1 ++ v2.extractLsb' 4 2]
  | [_] => []
  | [] => []

theorem decodeSyms_of_length_le_one {vs : List Sym} (h : vs.length ≤ 1) : decodeSyms vs = [] := by
  match vs with
  | [] | [_] => rfl

theorem length_decodeSyms (vs : List Sym) : (decodeSyms vs).length =
    3 * (vs.length / 4) + if vs.length % 4 = 2 then 1 else if vs.length % 4 = 3 then 2 else 0 := by
  fun_induction decodeSyms vs with
  | case1 v1 v2 v3 v4 rest ih =>
    have quotient : (rest.length + 4) / 4 = rest.length / 4 + 1 := Nat.add_div_right rest.length (Nat.zero_lt_succ 3)
    simp only [List.length_cons, ih, Nat.add_assoc, Nat.reduceAdd, Nat.add_mod_right, quotient]
    omega
  | case2 | case3 | case4 | case5 => simp

/-- Joining keeps the bits of the symbols in order and may leave some out at the end. -/
theorem bitString_decodeSyms (vs : List Sym) : bitString (decodeSyms vs) <+: bitString vs := by
  fun_induction decodeSyms vs with
  | case1 v1 v2 v3 v4 rest ih =>
    simpa only [bitString_cons, msbBits_append, msbBits_eq_append 2 4 v2, msbBits_eq_append 4 2 v3, List.append_assoc,
      List.prefix_append_right_inj] using ih
  | case2 v1 v2 v3 =>
    simp only [bitString_cons, bitString_nil, msbBits_append, msbBits_eq_append 2 4 v2, msbBits_eq_append 4 2 v3,
      List.append_assoc, List.prefix_append_right_inj, List.nil_prefix]
  | case3 v1 v2 =>
    simp only [bitString_cons, bitString_nil, msbBits_append, msbBits_eq_append 2 4 v2, List.append_assoc,
      List.prefix_append_right_inj, List.nil_prefix]
  | case4 | case5 => exact List.nil_prefix

/-- Each byte is joined from the pieces `Encode` cut it into. -/
theorem decodeSyms_b64Encode (bs : List Byte) : decodeSyms (b64Encode bs) = bs := by
  fun_induction b64Encode bs with
  | case1 b0 b1 b2 rest ih =>
    simp only [decodeSyms, ih, BitVec.extractLsb'_append_eq_left, BitVec.extractLsb'_append_eq_right,
      extractLsb'_append_extractLsb'_eq_self]
  | case2 | case3 =>
    simp only [decodeSyms, BitVec.extractLsb'_append_eq_left, BitVec.extractLsb'_append_eq_right,
      extractLsb'_append_extractLsb'_eq_self]
  | case4 => rfl

/-! ## `Decode` -/

/-- The procedure of rule R106 joins the valid symbols up to its limit: by cases on where in a group of four it stops. -/
theorem b64Decode_eq_take (cs : List Byte) (max : Nat) : b64Decode cs max = (decodeSyms (validSyms cs)).take max := by
  fun_induction b64Decode cs max with
  | case1 => simp
  | case2 max ch1 ch2 after2 hmax c1 c2 h2 h1 ih =>
    obtain ⟨n, rfl⟩ := Nat.exists_eq_succ_of_ne_zero hmax
    cases after2 with
    | nil => simp [h1, h2, decodeSyms]
    | cons ch3 after3 =>
    cases h3 : charSym ch3 with
    | none => simp [h1, h2, h3, decodeSyms]
    | some c3 =>
    cases after3 with
    | nil => cases n <;> simp [h1, h2, h3, decodeSyms]
    | cons ch4 after4 =>
    cases h4 : charSym ch4 with
    | none => cases n <;> simp [h1, h2, h3, h4, decodeSyms]
    | some c4 =>
    match n, ih with
    | 0, _ | 1, _ => simp [h1, h2, h3, h4, decodeSyms]
    | n + 2, ih => simpa [h1, h2, h3, h4, decodeSyms] using ih
  | case3 max ch1 ch2 after2 hmax invalid =>
    rw [decodeSyms_of_length_le_one, List.take_nil]
    cases h1 : charSym ch1 with
    | none => simp [h1]
    | some c1 =>
      have h2 : charSym ch2 = none := Option.eq_none_iff_forall_ne_some.2 fun c2 => invalid c1 c2 h1
      simp [h1, h2]
  | case4 cs max short =>
    rw [decodeSyms_of_length_le_one, List.take_nil]
    refine (length_validSyms_le cs).trans ?_
    match cs, short with
    | [], _ | [_], _ => simp
    | ch1 :: ch2 :: cs, short => exact (short ch1 ch2 cs rfl).elim

theorem bitString_b64Decode (cs : List Byte) (max : Nat) :
    bitString (b64Decode cs max) <+: bitString (validSyms cs) := by
  rw [b64Decode_eq_take]
  exact ((List.take_prefix max _).flatMap msbBits).trans (bitString_decodeSyms (validSyms cs))

/-- `Decode` undoes `Encode` (43_base64.md rule R109). -/
theorem b64Decode_map_b64Encode (bs : List Byte) {max : Nat} (h : bs.length ≤ max) :
    b64Decode ((b64Encode bs).map symChar) max = bs := by
  rw [b64Decode_eq_take, validSyms_map_symChar, decodeSyms_b64Encode, List.take_of_length_le h]

/-- Settles O43: the length is that of the joined symbols cut at the limit, and the bits are the first of theirs. -/
theorem decodeClosedForm : Obligations.DecodeClosedForm := by
  intro cs max v _ _ valid ends
  have hv : (validSyms cs).length = v := length_validSyms_eq valid ends
  refine ⟨by rw [b64Decode_eq_take, List.length_take, length_decodeSyms, hv], fun j hj i hi => ?_⟩
  have written : 8 * j + i < (bitString (b64Decode cs max)).length := by rw [length_bitString]; omega
  obtain ⟨rest, hrest⟩ := bitString_b64Decode cs max
  have inside : 8 * j + i < 6 * (validSyms cs).length := by
    rw [← length_bitString, ← hrest, List.length_append]
    omega
  rw [← getElem?_bitString _ j hi, ← List.getElem?_append_left written, hrest,
    getElem?_bitString_div (by decide), getElem?_validSyms (by omega), Option.map_bind]
  rfl

end Sys2Proof.Machine
end

section
/-! PROOF. O28, O29, O44: `B64E` and `B64D` (43_base64.md rules R104, R108, R109). Both read a run of bytes, and write a run of
bytes and its length. -/

namespace Sys2Proof.Machine

/-! ## A run of bytes written into `BUF` -/

section
variable {m : Memory} {a : Nat} {bs : List Byte} (h : m.wf = true) (ha : a + bs.length ≤ 128)
include h ha

theorem Memory.getElem?_eq_read_writeBytes {j : Nat} (hj : j < bs.length) :
    bs[j]? = some ((m.writeBytes a bs).read (a + j)) := by
  rw [Memory.read_writeBytes h ha, if_pos (by omega), Nat.add_sub_cancel_left, List.getD_eq_getElem _ _ hj,
    List.getElem?_eq_getElem hj]

theorem Memory.read_writeBytes_outside {x : Nat} (hx : x < a ∨ a + bs.length ≤ x) :
    (m.writeBytes a bs).read x = m.read x := by
  rw [Memory.read_writeBytes h ha, if_neg (by omega)]

theorem Memory.readBytes_writeBytes : (m.writeBytes a bs).readBytes a bs.length = bs := by
  refine List.ext_getElem (Memory.length_readBytes _ _ _) fun j _ hj => ?_
  rw [Memory.getElem_readBytes]
  exact Option.some.inj ((Memory.getElem?_eq_read_writeBytes h ha hj).symm.trans (List.getElem?_eq_getElem hj))

end

theorem Memory.getElem?_readBytes (m : Memory) (a : Nat) {n j : Nat} (h : j < n) :
    (m.readBytes a n)[j]? = some (m.read (a + j)) := by
  simp [Memory.readBytes, h]

theorem State.toNat_setRlen_rlen (s : State) {n : Nat} (h : n < 256) : (s.setRlen n).rlen.toNat = n := by
  rw [State.setRlen_rlen, BitVec.toNat_ofNat, Nat.mod_eq_of_lt h]

/-! ## The two effects -/

/-- The characters that `B64E a, b, c` writes. -/
def encodedChars (s : State) (a c : Field) : List Byte := (b64Encode (s.buf.readBytes a.toNat c.toNat)).map symChar

/-- The bytes that `B64D a, b, c, d` writes. -/
def decodedBytes (s : State) (a c d : Field) : List Byte := b64Decode (s.buf.readBytes a.toNat c.toNat) d.toNat

theorem length_encodedChars (s : State) (a c : Field) : (encodedChars s a c).length = (4 * c.toNat + 2) / 3 := by
  rw [encodedChars, List.length_map, length_b64Encode, Memory.length_readBytes, encodedLen_eq]

theorem length_decodedBytes_le (s : State) (a c d : Field) : (decodedBytes s a c d).length ≤ d.toNat :=
  length_b64Decode_le _ _

/-- A lone character is ignored (43_base64.md rule R108). -/
theorem decodedBytes_of_le_one {c : Field} (h : c.toNat ≤ 1) (s : State) (a d : Field) : decodedBytes s a c d = [] := by
  have few : (validSyms (s.buf.readBytes a.toNat c.toNat)).length ≤ 1 :=
    (length_validSyms_le _).trans (by rwa [Memory.length_readBytes])
  rw [decodedBytes, b64Decode_eq_take, decodeSyms_of_length_le_one few, List.take_nil]

theorem b64eEffect_buf (a b c : Field) (s : State) :
    (b64eEffect a b c s).buf = s.buf.writeBytes b.toNat (encodedChars s a c) := rfl

theorem b64dEffect_buf (a b c d : Field) (s : State) :
    (b64dEffect a b c d s).buf = s.buf.writeBytes b.toNat (decodedBytes s a c d) := rfl

theorem toNat_b64eEffect_rlen (a b c : Field) (s : State) :
    (b64eEffect a b c s).rlen.toNat = (encodedChars s a c).length := by
  rw [length_encodedChars]
  exact State.toNat_setRlen_rlen _ (by rw [encodedLen_eq]; omega)

theorem toNat_b64dEffect_rlen (a b c d : Field) (s : State) :
    (b64dEffect a b c d s).rlen.toNat = (decodedBytes s a c d).length :=
  State.toNat_setRlen_rlen _ (Nat.lt_of_le_of_lt (length_decodedBytes_le s a c d) (by omega))

/-! ## The commands -/

theorem not_regionOk_and {x y : Field} {m n : Nat} (h : 128 < x.toNat + m ∨ 128 < y.toNat + n) :
    ¬(regionOk x m && regionOk y n) = true := by
  rw [Bool.and_eq_true, regionOk_eq_true, regionOk_eq_true]
  omega

section
variable {s : State} {a b c d : Field} (hs : s.err = .noError)
include hs

theorem exec_b64e_eq_next (hc : 1 ≤ c.toNat) (ha : a.toNat + c.toNat ≤ 128)
    (hb : b.toNat + (4 * c.toNat + 2) / 3 ≤ 128) : exec (.b64e a b c) s = .next (b64eEffect a b c s) :=
  exec_eq_effect (okPhase := fun _ => true) rfl hs rfl (lenOk_eq_true.2 hc)
    (Bool.and_eq_true_iff.2 ⟨regionOk_eq_true.2 ha, regionOk_eq_true.2 hb⟩)

theorem exec_b64d_eq_next (hd : 1 ≤ d.toNat) (ha : a.toNat + c.toNat ≤ 128) (hb : b.toNat + d.toNat ≤ 128) :
    exec (.b64d a b c d) s = .next (b64dEffect a b c d s) :=
  exec_eq_effect (okPhase := fun _ => true) rfl hs rfl (lenOk_eq_true.2 hd)
    (Bool.and_eq_true_iff.2 ⟨regionOk_eq_true.2 ha, regionOk_eq_true.2 hb⟩)

end

/-- Settles O28: `B64E` writes the run of the characters of the old source bytes. -/
theorem b64eMeaning : Obligations.B64eMeaning := by
  intro s a b c hs hbuf
  refine ⟨?_, fun w hop hf => ?_, fun hc => ?_, fun hc hr => ?_, fun hc ha hb => ?_⟩
  · exact (pack_toNat 8 a b c 0).trans (by simp)
  · exact hostCmd_of_unused_ne_zero (row := .b64e 0 0 0) hs hop (by simpa [Instr.unusedFields] using hf)
  · exact exec_eq_raise_len (okPhase := fun _ => true) rfl hs rfl (mt lenOk_eq_true.1 (by omega))
  · exact exec_eq_raise_range (okPhase := fun _ => true) rfl hs rfl (lenOk_eq_true.2 hc) (not_regionOk_and hr)
  · have next := exec_b64e_eq_next hs hc ha hb
    rw [← length_encodedChars s a c] at hb ⊢
    exact ⟨b64eEffect a b c s, next, rfl, toNat_b64eEffect_rlen a b c s,
      fun j hj => List.getElem?_map.symm.trans (Memory.getElem?_eq_read_writeBytes hbuf hb hj),
      fun x => Memory.read_writeBytes_outside hbuf hb⟩

/-- Settles O29: `B64D` writes the run of the bytes that `Decode` returns, which is no longer than the limit. -/
theorem b64dMeaning : Obligations.B64dMeaning := by
  intro s a b c d hs hbuf
  refine ⟨?_, fun hd => ?_, fun hd hr => ?_, fun hd ha hb => ?_⟩
  · exact (pack_toNat 9 a b c d).trans (by simp)
  · exact exec_eq_raise_len (okPhase := fun _ => true) rfl hs rfl (mt lenOk_eq_true.1 (by omega))
  · exact exec_eq_raise_range (okPhase := fun _ => true) rfl hs rfl (lenOk_eq_true.2 hd) (not_regionOk_and hr)
  · have le := length_decodedBytes_le s a c d
    have fits : b.toNat + (decodedBytes s a c d).length ≤ 128 := by omega
    exact ⟨decodedBytes s a c d, b64dEffect a b c d s, exec_b64d_eq_next hs hd ha hb, rfl, rfl, le,
      fun hc => congrArg List.length (decodedBytes_of_le_one hc s a d), toNat_b64dEffect_rlen a b c d s,
      fun j => Memory.getElem?_eq_read_writeBytes hbuf fits, fun x => Memory.read_writeBytes_outside hbuf fits⟩

/-- What characters stand in `BUF` does not decide how `B64D` ends: none of its checks reads `BUF`. -/
theorem exec_b64d_err_ecmd_eq {s t u : State} {m : Memory} {a b c d : Field} (ht : exec (.b64d a b c d) s = .next t)
    (hu : exec (.b64d a b c d) { s with buf := m } = .next u) : u.err = t.err ∧ u.ecmd = t.ecmd := by
  rw [exec_eq_command rfl] at ht hu
  obtain ⟨hs, rfl⟩ | ⟨hs, he, rfl⟩ | ⟨hs, he, rfl⟩ := command_cases ht
  · rw [command_halted (s := { t with buf := m }) hs] at hu
    cases hu
    exact ⟨rfl, rfl⟩
  · rw [command_running (s := { s with buf := m }) hs, if_neg he] at hu
    cases hu
    exact ⟨rfl, rfl⟩
  · rw [command_running (s := { s with buf := m }) hs, if_pos he] at hu
    cases hu
    exact ⟨rfl, rfl⟩

/-- Settles O44: `B64D` reads back the run that `B64E` wrote. Up to 95 bytes have at most 127 characters, which `c` can count. -/
theorem codecRoundTrip : Obligations.CodecRoundTrip := by
  refine ⟨fun s a b c x d hs hbuf hc hc' ha hb hd hx => ?_, fun _ _ _ _ _ _ _ _ => exec_b64d_err_ecmd_eq⟩
  have len := length_encodedChars s a c
  have fits : b.toNat + (encodedChars s a c).length ≤ 128 := by rwa [len]
  let t := b64eEffect a b c s
  have wf : t.buf.wf = true := Memory.wf_writeBytes hbuf fits
  have count : (t.rlen.setWidth 7).toNat = (encodedChars s a c).length := by
    rw [BitVec.toNat_setWidth, toNat_b64eEffect_rlen, Nat.mod_eq_of_lt (by omega)]
  have decoded : decodedBytes t b (t.rlen.setWidth 7) d = s.buf.readBytes a.toNat c.toNat := by
    rw [decodedBytes, count, b64eEffect_buf, Memory.readBytes_writeBytes hbuf fits, encodedChars,
      b64Decode_map_b64Encode _ (by rwa [Memory.length_readBytes])]
  have out : x.toNat + (s.buf.readBytes a.toNat c.toNat).length ≤ 128 := by rw [Memory.length_readBytes]; omega
  refine ⟨t, b64dEffect b x (t.rlen.setWidth 7) d t, exec_b64e_eq_next hs hc ha hb,
    exec_b64d_eq_next hs (by omega) (by omega) hx, ?_, fun j hj => ?_⟩
  · rw [toNat_b64dEffect_rlen, decoded, Memory.length_readBytes]
  · have read := Memory.getElem?_eq_read_writeBytes wf out (by rwa [Memory.length_readBytes])
    rw [Memory.getElem?_readBytes _ _ hj] at read
    rw [b64dEffect_buf, decoded]
    exact (Option.some.inj read).symm

end Sys2Proof.Machine
end

section
/-! PROOF. O2, O3: with nothing pending the block holds its state (60_exceptions.md rule R139), and every host operation
completes (rule R120), so every step answers a next state. -/

namespace Sys2Proof.Machine

/-- Settles O2: the idle step. -/
theorem idleBlockHoldsItsState : Obligations.IdleBlockHoldsItsState := fun _ => step_nil

theorem exists_hostOp_eq_next (o : HostOp) (s : State) : ∃ t, hostOp o s = .next t := by
  cases o with
  | cmd w => exact exists_hostCmd_eq_next w s
  | writeBuf | readBuf | readCsr | hardReset => exact ⟨_, rfl⟩

/-- Settles O3: a step is idle or performs the oldest pending operation. -/
theorem everyStepHasNextState : Obligations.EveryStepHasNextState := by
  intro s
  cases hp : s.pending with
  | nil => exact ⟨s, step_nil hp⟩
  | cons o rest => exact step_cons hp ▸ exists_hostOp_eq_next o (s.setPending rest)

end Sys2Proof.Machine
end

section
/-! PROOF. O17, O18: in a block that is not halted a command records the error that the tables of 60_exceptions.md rule R122
give for its word, and where they give one it does nothing else (rule R121). -/

namespace Sys2Proof.Machine

/-- `RST` is in no row of the second table of rule R122. -/
theorem errorOf_encode_rst (b : Block) : errorOf (encode .rst) b = .noError := rfl

section
variable {w : Word} {s t : State}

/-- `HostCmd(w)` in a block that is not halted: the tables give no error and none is recorded, or it fails. -/
theorem hostCmd_cases_of_running (hs : s.err = .noError) (h : hostCmd w s = .next t) :
    (errorOf w s.toBlock = .noError ∧ t.err = .noError) ∨
      (errorOf w s.toBlock ≠ .noError ∧ t = s.raise (errorOf w s.toBlock) w) := by
  obtain ⟨rfl, rfl⟩ | ⟨halted, -⟩ | ⟨-, error, ht⟩ | ⟨i, check, effect, hi, parts, -, pass, rfl⟩ := hostCmd_cases h
  · exact .inl ⟨errorOf_encode_rst s.toBlock, rfl⟩
  · exact absurd hs halted
  · exact .inr ⟨error, ht⟩
  · rw [← encode_of_decode hi, errorOf_encode parts]
    exact .inl ⟨pass, (effect_err parts s).trans hs⟩

theorem hostCmd_err_of_running (hs : s.err = .noError) (h : hostCmd w s = .next t) : t.err = errorOf w s.toBlock := by
  obtain ⟨noError, ht⟩ | ⟨-, rfl⟩ := hostCmd_cases_of_running hs h
  · rw [ht, noError]
  · rfl

end

/-- Bits 6:4 of `STATUS` (10_state.md rule R19): `PHASE` and `LOADED` stand below them, `RLEN` above. -/
theorem Block.status_errBits (b : Block) : b.status.toNat / 2 ^ 4 % 2 ^ 3 = b.err.code.toNat := by
  rw [Block.status_toNat]
  omega

/-- Settles O17: the error recorded is that of the tables, and `STATUS` shows its code. -/
theorem errorCodeInStatus : Obligations.ErrorCodeInStatus := by
  intro w s t hs h
  refine ⟨?_, fun error => ?_⟩
  · rw [Block.status_errBits, hostCmd_err_of_running hs h]
    cases errorOf w s.toBlock <;> rfl
  · obtain ⟨noError, -⟩ | ⟨-, rfl⟩ := hostCmd_cases_of_running hs h
    · exact absurd noError error
    · rfl

/-- Settles O18: an `ERR` that is not 0 rules out the end without an error. -/
theorem failedCommandChangesOnlyErrorRegisters : Obligations.FailedCommandChangesOnlyErrorRegisters := by
  intro w s t hs h failed
  obtain ⟨-, noError⟩ | ⟨-, ht⟩ := hostCmd_cases_of_running hs h
  · exact absurd noError failed
  · exact ht

end Sys2Proof.Machine
end

section
/-! PROOF. O19, O20: a halted block ignores every command but `RST` (60_exceptions.md rule R123), and the host's reads and
writes neither look at `ERR` nor change it, so only the two resets lead out of an error (rule R124). -/

namespace Sys2Proof.Machine

section
variable {s : State}

theorem exec_of_halted {i : Instr} (hs : s.err ≠ .noError) (hi : i ≠ .rst) : exec i s = .next s := by
  cases parts : commandParts i with
  | none => exact absurd (commandParts_eq_none.1 parts) hi
  | some => exact (exec_eq_command parts s).trans (command_halted hs ..)

theorem hostCmd_of_halted {w : Word} (hs : s.err ≠ .noError) (hw : w ≠ encode .rst) : hostCmd w s = .next s := by
  obtain ⟨-, ignored, -, -⟩ := everyWordHasOneOutcome w s
  exact ignored hw hs

/-- Either reset zeroes every element but `BUF`, halted or not. -/
theorem toBlock_of_reset {o : HostOp} {t : State} (ho : o = .cmd (encode .rst) ∨ o = .hardReset)
    (h : hostOp o s = .next t) : t.toBlock = { Block.zero with buf := t.buf } := by
  obtain rfl | rfl := ho
  · cases (hostCmd_ok (decode_encode .rst) s).symm.trans h
    rfl
  · cases h
    rfl

/-- An operation of a halted block that is no reset writes `BUF` at most. -/
theorem toBlock_of_halted {o : HostOp} {t : State} (hs : s.err ≠ .noError) (rst : o ≠ .cmd (encode .rst))
    (reset : o ≠ .hardReset) (h : hostOp o s = .next t) : t.toBlock = { s.toBlock with buf := t.buf } := by
  cases o with
  | cmd w =>
    cases (hostCmd_of_halted hs fun hw => rst (congrArg HostOp.cmd hw)).symm.trans h
    rfl
  | writeBuf | readBuf | readCsr => cases h; rfl
  | hardReset => exact absurd rfl reset

end

/-- Settles O19: of what the host's own operations read and write, only `STATUS` has to do with `ERR`. -/
theorem haltedBlockIgnoresCommands : Obligations.HaltedBlockIgnoresCommands := by
  intro s hs
  refine ⟨fun w => hostCmd_of_halted hs, fun i => exec_of_halted hs, fun o noCmd reset u hu => ?_⟩
  cases o with
  | cmd w => exact absurd rfl (noCmd w)
  | writeBuf | readBuf => cases hu; exact ⟨_, rfl, rfl, fun _ => rfl⟩
  | readCsr n =>
    cases hu
    refine ⟨_, rfl, rfl, fun notStatus => ?_⟩
    cases n with
    | status => exact absurd rfl notStatus
    | ecmd => rfl
  | hardReset => exact absurd rfl reset

/-- Settles O20: the block after an operation that is no reset, and after either reset, element by element. -/
theorem onlyResetsClearErrors : Obligations.OnlyResetsClearErrors := by
  intro s o hs
  obtain ⟨t, ht⟩ := exists_hostOp_eq_next o s
  refine ⟨t, ht, fun rst reset => ?_, fun ho => ?_⟩
  · rw [toBlock_of_halted hs rst reset ht]
    exact ⟨rfl, rfl, rfl, rfl, rfl, rfl, rfl⟩
  · rw [toBlock_of_reset ho ht]
    simp [Block.zero]

end Sys2Proof.Machine
end

section
/-! PROOF. O8, O9: `HardReset` leaves the block that stands after power-on, and `RST` leaves the same block but for `BUF`
(70_reset_and_hazards.md rules R140, R141). -/

namespace Sys2Proof.Machine

@[simp] theorem Memory.read_nil (a : Nat) : Memory.read [] a = 0 := rfl

theorem hostOp_hardReset (s : State) : hostOp .hardReset s = .next s.hardReset := rfl

theorem hostOp_rst (s : State) : hostOp (.cmd 0xF0000000) s = .next s.softReset :=
  (hostCmd_ok (decode_encode .rst) s).trans (exec_rst s)

/-- Settles O8: the hard reset element by element. -/
theorem hardResetClearsEverything : Obligations.HardResetClearsEverything := by
  intro s
  refine ⟨s.hardReset, hostOp_hardReset s, rfl, ?_⟩
  simp [Block.zero, Block.status, Phase.code, Err.code]

/-- Settles O9: both resets write the zero block, `RST` with the `BUF` it found. -/
theorem twoResetsDifferInBuf : Obligations.TwoResetsDifferInBuf := fun s =>
  ⟨s.hardReset, s.softReset, hostOp_hardReset s, hostOp_rst s, rfl, Memory.read_nil, s.softReset_buf⟩

end Sys2Proof.Machine
end

section
/-! PROOF. O38: `ENC` reads and writes one pair of words of `D`, and different even offsets name pairs with no word in common
(70_reset_and_hazards.md rule R146). -/

namespace Sys2Proof.Machine

/-! ## Pairs of `D` with no word in common -/

/-- No word is in both pairs. -/
def PairsApart (i j : Nat) : Prop := i ≠ j ∧ i + 1 ≠ j ∧ j + 1 ≠ i

theorem PairsApart.symm {i j : Nat} (h : PairsApart i j) : PairsApart j i := by
  obtain ⟨left, right, right'⟩ := h
  exact ⟨left.symm, right', right⟩

theorem pairsApart_of_even {i j : Nat} (hi : i % 2 = 0) (hj : j % 2 = 0) (h : i ≠ j) : PairsApart i j := by
  unfold PairsApart
  omega

theorem dWord_setPair_of_ne (v : Vector Word 6) (lr : Word × Word) {i k : Nat} (hk : k < 6) (hl : i ≠ k)
    (hr : i + 1 ≠ k) : dWord (setPair v i lr) k = dWord v k := by
  rw [dWord_eq_getElem _ hk, dWord_eq_getElem _ hk, getElem_setPair, if_neg hr, if_neg hl]

/-- A word of `D` is written by one of the two at most, whatever their order. -/
theorem setPair_comm (v : Vector Word 6) (x y : Word × Word) {i j : Nat} (h : PairsApart i j) :
    setPair (setPair v i x) j y = setPair (setPair v j y) i x := by
  obtain ⟨left, right, right'⟩ := h
  refine Vector.ext fun k hk => ?_
  simp only [getElem_setPair]
  grind

/-! ## Enciphering a pair -/

/-- `(D[i], D[i+1]) <- Encipher(D[i], D[i+1])` (41_encipher.md rule R83). -/
def encipherPair (c : CipherState) (v : Vector Word 6) (i : Nat) : Vector Word 6 :=
  setPair v i (encipher c (dWord v i, dWord v (i + 1)))

theorem encEffect_eq (d : Field) (s : State) :
    encEffect d s = (s.setD (encipherPair s.cipher s.d d.toNat)).setPhase .encipher := rfl

/-- Enciphering one pair leaves a pair apart from it as it was, so the second encipherment reads the same block. -/
theorem encipherPair_encipherPair (c : CipherState) (v : Vector Word 6) {i j : Nat} (hj : j ≤ 4) (h : PairsApart i j) :
    encipherPair c (encipherPair c v i) j =
      setPair (encipherPair c v i) j (encipher c (dWord v j, dWord v (j + 1))) := by
  obtain ⟨left, right, right'⟩ := h
  have same : dWord (encipherPair c v i) j = dWord v j := dWord_setPair_of_ne v _ (by omega) left right
  have same' : dWord (encipherPair c v i) (j + 1) = dWord v (j + 1) :=
    dWord_setPair_of_ne v _ (by omega) right'.symm (by omega)
  rw [← same, ← same']
  rfl

theorem encipherPair_comm (c : CipherState) (v : Vector Word 6) {i j : Nat} (hi : i ≤ 4) (hj : j ≤ 4)
    (h : PairsApart i j) :
    encipherPair c (encipherPair c v i) j = encipherPair c (encipherPair c v j) i := by
  rw [encipherPair_encipherPair c v hj h, encipherPair_encipherPair c v hi h.symm]
  exact setPair_comm v _ _ h

/-! ## The command -/

theorem State.setD_setPhase_overwritten (s : State) (v w : Vector Word 6) (p q : Phase) :
    (((s.setD v).setPhase p).setD w).setPhase q = (s.setD w).setPhase q := rfl

theorem encEffect_comm (s : State) {d e : Field} (hd : d.toNat ≤ 4) (he : e.toNat ≤ 4) (h : PairsApart d.toNat e.toNat) :
    encEffect e (encEffect d s) = encEffect d (encEffect e s) := by
  simp only [encEffect_eq, State.setPhase_cipher, State.setPhase_d, State.setD_cipher, State.setD_d,
    State.setD_setPhase_overwritten, encipherPair_comm s.cipher s.d hd he h]

theorem exec_enc_eq_effect {s : State} {d : Field} (hs : s.err = .noError)
    (hp : s.phase = .keysched ∨ s.phase = .encipher) (hd : d.toNat ≤ 4) : exec (.enc d) s = .next (encEffect d s) :=
  exec_eq_effect rfl hs (phaseEnc_eq_true.2 hp) rfl (offsetOk_eq_true.2 hd)

/-- Settles O38: after the first `ENC` the block is in `ENCIPHER`, where the second one is executed too, and the two effects
commute. -/
theorem encOnDifferentPairsCommute : Obligations.EncOnDifferentPairsCommute := by
  intro s d e hs hp hd he hdEven heEven hne
  have apart : PairsApart d.toNat e.toNat := pairsApart_of_even hdEven heEven fun h => hne (BitVec.eq_of_toNat_eq h)
  have second (f g : Field) (hg : g.toNat ≤ 4) :
      exec (.enc g) (encEffect f s) = .next (encEffect g (encEffect f s)) :=
    exec_enc_eq_effect (s := encEffect f s) hs (.inr rfl) hg
  refine ⟨encEffect d s, encEffect e s, encEffect e (encEffect d s), exec_enc_eq_effect hs hp hd, second d e he,
    exec_enc_eq_effect hs hp he, ?_⟩
  rw [encEffect_comm s hd he apart]
  exact second e d hd

end Sys2Proof.Machine
end

section
/-! PROOF. O46: the walk of `PHASE` through one computation (70_reset_and_hazards.md rule R143). None of its commands fails or
touches `RLEN`, so `STATUS` shows `PHASE` and `LOADED` alone. -/

namespace Sys2Proof.Machine

/-- The control state of a block that is not halted and has run no codec command. -/
structure Block.Control (b : Block) (p : Phase) (l : Bool) : Prop where
  phase : b.phase = p
  loaded : b.loaded = l
  err : b.err = .noError
  rlen : b.rlen = 0

theorem Block.Control.status_toNat {b : Block} {p : Phase} {l : Bool} (h : b.Control p l) :
    b.status.toNat = p.code.toNat + 2 ^ 2 * (BitVec.ofBool l).toNat := by
  rw [Block.status_toNat, h.phase, h.loaded, h.err, h.rlen]
  rfl

theorem Phase.eq_uninit_of_code {p : Phase} : p.code.toNat = 0 → p = .uninit := by
  cases p <;> decide

theorem Err.eq_noError_of_code {e : Err} : e.code.toNat = 0 → e = .noError := by
  cases e <;> decide

/-- `STATUS` is 0 only where each field of it is. -/
theorem Block.control_of_status_eq_zero {b : Block} (h : b.status = 0) : b.Control .uninit false := by
  have fields : 0 = _ := (congrArg BitVec.toNat h).symm.trans b.status_toNat
  have phase : b.phase.code.toNat = 0 := by omega
  have loaded : (BitVec.ofBool b.loaded).toNat = 0 := by omega
  have err : b.err.code.toNat = 0 := by omega
  have rlen : b.rlen.toNat = 0 := by omega
  exact ⟨Phase.eq_uninit_of_code phase, by simpa using loaded, Err.eq_noError_of_code err, BitVec.eq_of_toNat_eq rlen⟩

/-! ## One command of the walk -/

section
variable {s : State} {l : Bool}

theorem exec_init_control (h : s.Control .uninit l) : ∃ t, exec .init s = .next t ∧ t.Control .uninit true :=
  ⟨initEffect s, exec_init_of_uninit h.err h.phase, h.phase, rfl, h.err, h.rlen⟩

theorem exec_of_phaseOk {i : Instr} {check : Block → Err} {effect : State → State}
    (hi : commandParts i = some (check, effect)) (hw : i.wellFormed = true) (he : s.err = .noError)
    (ok : phaseOk i s.toBlock = true) : exec i s = .next (effect s) :=
  (exec_of_wellFormed hi hw he).trans (congrArg _ (if_pos ok))

theorem control_setCipher_setPhase {p : Phase} (h : s.Control p l) (c : CipherState) (q : Phase) :
    ((s.setCipher c).setPhase q).Control q l := ⟨rfl, h.loaded, h.err, h.rlen⟩

theorem exec_schedule_control {i : Instr} (hi : (∃ x y z, i = .eks x y z) ∨ ∃ x z, i = .ks x z)
    (hw : i.wellFormed = true) (h : s.Control .uninit true) :
    ∃ t, exec i s = .next t ∧ t.Control .keysched true := by
  obtain ⟨x, y, z, rfl⟩ | ⟨x, z, rfl⟩ := hi
  · exact ⟨eksEffect x y z s, exec_of_phaseOk rfl hw h.err (phaseEks_eq_true.2 ⟨h.phase, h.loaded⟩),
      control_setCipher_setPhase h _ _⟩
  · exact ⟨ksEffect x z s, exec_of_phaseOk rfl hw h.err (phaseKs_eq_true.2 (.inl ⟨h.phase, h.loaded⟩)),
      control_setCipher_setPhase h _ _⟩

theorem exec_enc_control {d : Field} (hd : d.toNat ≤ 4) (h : s.Control .keysched l) :
    ∃ t, exec (.enc d) s = .next t ∧ t.Control .encipher l :=
  ⟨encEffect d s, exec_enc_eq_effect h.err (.inl h.phase) hd, rfl, h.loaded, h.err, h.rlen⟩

theorem exec_std_control {b : Field} (hb : b.toNat ≤ 104) (h : s.Control .encipher l) :
    ∃ t, exec (.std b) s = .next t ∧ t.Control .done l :=
  ⟨stdEffect b s, exec_eq_effect rfl h.err (phaseStd_eq_true.2 h.phase) rfl (regionOk_dataBytes.2 hb), rfl, h.loaded,
    h.err, h.rlen⟩

theorem exec_rst_control (s : State) : ∃ t, exec .rst s = .next t ∧ t.Control .uninit false :=
  ⟨s.softReset, exec_rst s, rfl, rfl, rfl, rfl⟩

end

/-- Settles O46: five commands, each executed in the control state the one before it left. -/
theorem statusAlongOneComputation : Obligations.StatusAlongOneComputation := by
  intro s schedule d b h0 hschedule hw hd hb
  obtain ⟨t1, e1, c1⟩ := exec_init_control (Block.control_of_status_eq_zero h0)
  obtain ⟨t2, e2, c2⟩ := exec_schedule_control hschedule hw c1
  obtain ⟨t3, e3, c3⟩ := exec_enc_control hd c2
  obtain ⟨t4, e4, c4⟩ := exec_std_control hb c3
  obtain ⟨t5, e5, c5⟩ := exec_rst_control t4
  exact ⟨t1, t2, t3, t4, t5,
    e1, BitVec.eq_of_toNat_eq c1.status_toNat, e2, BitVec.eq_of_toNat_eq c2.status_toNat,
    e3, BitVec.eq_of_toNat_eq c3.status_toNat, e4, BitVec.eq_of_toNat_eq c4.status_toNat,
    e5, BitVec.eq_of_toNat_eq c5.status_toNat⟩

end Sys2Proof.Machine
end
